-- ==== Sys2Proof/Word.lean ====
section
/-! DEFINITION. The words of the part: bytes, the 64 data bytes of a line, the byte-enable mask, host line
addresses and tags, and the table helpers (map and lowest-index search) that every block uses. -/

namespace Sys2Proof

/-- One byte of the management link, of the store link or of a line. -/
abbrev Byte := BitVec 8

/-- The 64 data bytes of a line, byte 0 first (Table 3-1, Table 5-1). -/
abbrev LineData := Vector Byte 64

/-- The byte-enable mask: bit `i` is the entry of byte `i` of the line (R33). -/
abbrev ByteMask := BitVec 64

/-- A host line address: 28 bits (R10). -/
abbrev HostLine := BitVec 28

/-- A host tag, 0 to 31 (R33). -/
abbrev HostTag := Fin 32

/-- A downstream tag, 0 to 63 (R69). -/
abbrev PortTag := Fin 64

/-- 64 zero bytes (R34, R66). -/
def zeroLine : LineData := Vector.replicate 64 0

/-- A mask with all 64 entries set (R33). -/
def fullMask : ByteMask := BitVec.allOnes 64

/-- A table with `f` applied at every index. -/
def tableMap {α β : Type} {n : Nat} (f : α → β) (v : Vector α n) : Vector β n :=
  ⟨⟨v.toList.map f⟩, by simp⟩

/-- The lowest index of a table whose item satisfies `p`. -/
def lowestIndex {α : Type} {n : Nat} (p : α → Bool) (v : Vector α n) : Option (Fin n) :=
  (List.finRange n).find? (fun i => p v[i])

end Sys2Proof
end

