-- ==== Sys2Proof/Machine/Operands.lean ====
section
/-! DEFINITION. The operand forms: multi-byte numbers least significant byte first (R164), command frames
and their tests (R155, Table 11-5), and the CRC of a journal record (R128, R164). -/

namespace Sys2Proof.Machine

/-- The number that bytes spell, least significant byte first (R164). -/
def leNat (bytes : List Byte) : Nat := bytes.foldr (fun b acc => b.toNat + 256 * acc) 0

/-- The lowest `w` bytes of a number, least significant byte first (R164). -/
def leBytes : Nat → Nat → List Byte
  | 0, _ => []
  | w + 1, n => BitVec.ofNat 8 n :: leBytes w (n / 256)

/-- One byte of a payload. -/
def byteOf (n : Nat) : Byte := BitVec.ofNat 8 n

/-- A payload field of `w` bytes, all ones when the field is absent (R164). -/
def leOption (w : Nat) : Option Nat → List Byte
  | some n => leBytes w n
  | none => List.replicate w 0xFF

/-- The sum of a frame's bytes modulo 256 (R155). -/
def byteSum (bytes : List Byte) : Byte := bytes.foldl (· + ·) 0

/-- The check byte that makes a frame sum to 0 modulo 256 (R155, R157). -/
def checkByte (bytes : List Byte) : Byte := 0 - byteSum bytes

/-- The command codes of Table 11-4. -/
def commandCodes : List Byte :=
  [0x01, 0x02, 0x10, 0x11, 0x12, 0x20, 0x21, 0x22, 0x23, 0x30, 0x31, 0x40, 0x41, 0x42, 0x43, 0x44,
   0x50, 0x51, 0x52, 0x58, 0x59, 0x60, 0x61, 0x62]

/-- The length test of R155: at least three bytes, N at most 24, and N + 3 bytes in all. -/
def frameLengthOk (bytes : List Byte) : Bool :=
  match bytes with
  | _ :: n :: rest => decide (n.toNat ≤ 24) && rest.length == n.toNat + 1
  | _ => false

/-- The check test of R155. -/
def frameCheckOk (bytes : List Byte) : Bool := byteSum bytes == 0

/-- The command code of a frame. -/
def frameCode (bytes : List Byte) : Byte := bytes.headD 0

/-- The parameter bytes of a frame that passes the length test. -/
def frameParams (bytes : List Byte) : List Byte := (bytes.drop 2).dropLast

/-- The code test of R155. -/
def frameCodeOk (bytes : List Byte) : Bool := commandCodes.contains (frameCode bytes)

/-- The frame of a command (Table 11-5). -/
def frameOf (code : Byte) (params : List Byte) : List Byte :=
  let body := code :: byteOf params.length :: params
  body ++ [checkByte body]

/-- How many of the bytes of a frame the part acknowledges when the link is not BUSY (R155). -/
def acknowledged (bytes : List Byte) : Nat := min bytes.length 27

/-- One bit of the CRC: polynomial 1021h, most significant bit first (R164). -/
def crcBit (crc : BitVec 16) : BitVec 16 :=
  if crc.msb then (crc <<< 1) ^^^ 0x1021 else crc <<< 1

/-- One byte of the CRC. -/
def crcByte (crc : BitVec 16) (b : Byte) : BitVec 16 :=
  Nat.iterate crcBit 8 (crc ^^^ (b.zeroExtend 16 <<< 8))

/-- The CRC of a record's bytes: initial value FFFFh, no final inversion (R164). -/
def crc16 (bytes : List Byte) : BitVec 16 := bytes.foldl crcByte 0xFFFF

end Sys2Proof.Machine
end

