-- ==== Sys2Proof/Syntax.lean ====
section
/-! DEFINITION. The commands: one constructor for each row of spec/opcode_table.json, with what the row
takes from outside the part as its operands. -/

namespace Sys2Proof

/-- A condition that the memory controller reports for a downstream request (Table 5-2). -/
inductive Condition where
  | clean | fixed | failed | poisoned | done | error
deriving DecidableEq, Repr

/-- The operations and events of the part. A management command carries the parameter bytes of its frame,
so that the length test of R159 is the command's own. -/
inductive Instr where
  /-- Power-on or RESET, with the levels of the straps at that moment (R1). -/
  | fullReset (hold storeEn : Bool) (addr : BitVec 2)
  /-- HOST_RESET becomes asserted (R50). -/
  | hostResetAssert
  /-- HOST_RESET is released (R51). -/
  | hostResetRelease
  /-- The host presents a LINE READ (R39). -/
  | lineRead (tag : HostTag) (line : HostLine)
  /-- The host presents a LINE WRITE (R39). -/
  | lineWrite (tag : HostTag) (line : HostLine) (data : LineData) (mask : ByteMask)
  /-- The arbiter grants one presented request (R74). -/
  | arbiterGrant
  /-- A head LINE WRITE is brought to grant and found locked (R59). -/
  | holdDiversion
  /-- The memory controller answers on a downstream tag (R70). -/
  | downstreamResponse (tag : PortTag) (cond : Condition) (data : LineData)
  /-- The timer of a downstream tag expires (R71). -/
  | tagTimeout (tag : PortTag)
  /-- The copy engine starts a copy (R95). -/
  | copyStart
  /-- The copy engine presents its source READ once the line is quiet (R98). -/
  | copyReadPresent
  /-- The last condition of R21 holds and the abort ends. -/
  | abortEnd
  /-- The sweep's interval timer expires (R116). -/
  | sweepIntervalExpiry
  /-- The sweep presents its READ once the line is quiet (R117). -/
  | sweepReadPresent
  /-- The journal controller serves the request at the head of its list (R131). -/
  | journalServeRequest
  /-- Busy reads clear after a page program; `readBack` is the 16 bytes then read (R127). -/
  | pageProgramDone (readBack : List Byte)
  /-- A page program exceeds its completion limit (R127). -/
  | programLimitExpiry
  /-- Busy reads clear after a sector erase (R127). -/
  | sectorEraseDone
  /-- A sector erase exceeds its completion limit (R127). -/
  | eraseLimitExpiry
  /-- A flash read completes; `positions` are the 16-byte positions read, in order (R135, R136). -/
  | journalReadDone (positions : List (List Byte))
  /-- The attach's wait for a ready store exceeds the limit (R141). -/
  | attachReadyExpiry
  /-- A write transaction is refused while the link is BUSY (R156). -/
  | busyWriteRefused (bytes : List Byte)
  /-- A write transaction whose bytes fail a frame test of R155. -/
  | unknownFrame (bytes : List Byte)
  | start (params : List Byte)
  | cleanStart (params : List Byte)
  | getParam (params : List Byte)
  | setParam (params : List Byte)
  | setGeometry (params : List Byte)
  | readRemap (params : List Byte)
  | findSpan (params : List Byte)
  | readHealth (params : List Byte)
  | clearHealth (params : List Byte)
  | retireSpan (params : List Byte)
  | cancelRetire (params : List Byte)
  | readEvents (params : List Byte)
  | dropEvents (params : List Byte)
  | readAlerts (params : List Byte)
  | ackAlerts (params : List Byte)
  | setAlertMask (params : List Byte)
  | sweepStart (params : List Byte)
  | sweepStop (params : List Byte)
  | sweepRestart (params : List Byte)
  | readStats (params : List Byte)
  | clearStats (params : List Byte)
  | storeDetach (params : List Byte)
  | storeAttach (params : List Byte)
  | rawShift (params : List Byte)
  /-- The last byte of a RAW_SHIFT is shifted; `sampled` is one byte for each byte driven (R143). -/
  | rawShiftDone (sampled : List Byte)
  /-- During an attach, busy reads clear within the limit (R141). -/
  | storeReady
deriving DecidableEq, Repr

end Sys2Proof
end

