-- ==== Sys2Proof/WellFormed.lean ====
section
/-! DEFINITION. When a command is well formed: its operands are ones that the pins, the link or the store
can bring. Tags, line addresses and straps are well formed by their types. -/

namespace Sys2Proof

/-- The parameter bytes of a frame: N is 0 to 24 (R155). -/
def paramsWf (params : List Byte) : Bool := params.length ≤ 24

/-- The bytes pass the length, check and code tests of R155: they are a command frame. -/
def isCommandFrame (bytes : List Byte) : Bool :=
  Machine.frameLengthOk bytes && Machine.frameCheckOk bytes && Machine.frameCodeOk bytes

/-- A command whose operands can arise at the part's ports. -/
def Instr.wf : Instr → Bool
  | .fullReset _ _ _ | .hostResetAssert | .hostResetRelease | .lineRead _ _ | .lineWrite _ _ _ _
  | .arbiterGrant | .holdDiversion | .downstreamResponse _ _ _ | .tagTimeout _ | .copyStart
  | .copyReadPresent | .abortEnd | .sweepIntervalExpiry | .sweepReadPresent | .journalServeRequest
  | .programLimitExpiry | .sectorEraseDone | .eraseLimitExpiry | .attachReadyExpiry | .storeReady => true
  | .pageProgramDone readBack => readBack.length == 16
  | .journalReadDone positions => !positions.isEmpty && positions.all (fun p => p.length == 16)
  | .busyWriteRefused bytes => !bytes.isEmpty
  | .unknownFrame bytes => !bytes.isEmpty && !isCommandFrame bytes
  | .rawShiftDone sampled => !sampled.isEmpty && decide (sampled.length ≤ 16)
  | .start ps | .cleanStart ps | .getParam ps | .setParam ps | .setGeometry ps | .readRemap ps
  | .findSpan ps | .readHealth ps | .clearHealth ps | .retireSpan ps | .cancelRetire ps
  | .readEvents ps | .dropEvents ps | .readAlerts ps | .ackAlerts ps | .setAlertMask ps
  | .sweepStart ps | .sweepStop ps | .sweepRestart ps | .readStats ps | .clearStats ps
  | .storeDetach ps | .storeAttach ps | .rawShift ps => paramsWf ps

end Sys2Proof
end

