-- ==== Sys2Proof/Config.lean ====
section
/-! DEFINITION. Constants of the part that no state changes, the times the part works by (for reference:
time itself is outside the model, see notes/assumptions/4.md), and the one free value. -/

namespace Sys2Proof.Config

/-- A downstream tag's timer expires after 200 µs (R71). -/
def tagTimeoutMicros : Nat := 200

/-- The completion limit of a page program, 5 ms (R127). -/
def programLimitMicros : Nat := 5000

/-- The completion limit of a sector erase, and of the wait for a ready store, 500 ms (R127, R141). -/
def eraseLimitMicros : Nat := 500000

/-- The largest span number (R10). -/
def maxSpan : Nat := 4194303

/-- The largest epoch of a header (Table 9-2). -/
def maxEpoch : Nat := 4294967295

/-- DESIGN CHOICE, notes/assumptions/10.md. The value a sweep pass statistic takes when it rises past
4,294,967,295: Table 8-1 gives the range and no rule says what follows its top. A free value: the argument
is the sweep's counter of such rises. -/
opaque passStatPastMax : Nat → BitVec 32

end Sys2Proof.Config
end

