-- ==== Sys2Proof/Machine/State.lean ====
section
/-! DEFINITION. The state of the part, as plain data, and the state after a full reset. Every field is
listed in INVENTORY.md with the rule that names it; the fields that are the model's own say so here. -/

namespace Sys2Proof.Machine

/-- No command of the part stops it with a fault: where the manual reports an error it does so by an event,
a response or the mode, and the machine goes on. No constructor, so nothing raises one (safe). -/
inductive Fault where
deriving DecidableEq, Repr

/-- Why the model gives a command no meaning. -/
inductive Refusal where
  /-- Raised by `exec` alone, for a command whose meaning is not written yet. Safe: the run stops. -/
  | notModelled (mnemonic : String)
deriving DecidableEq, Repr

/-! ### Mode, pins, geometry, parameters -/

/-- The bridge mode (section 1.1). -/
inductive Mode where
  | startup | online | fenced
deriving DecidableEq, Repr

/-- The sampled straps (R1) and the level of the HOST_RESET input (R9). -/
structure Pins where
  hold : Bool
  storeEn : Bool
  addr : BitVec 2
  /-- HOST_RESET is asserted. -/
  hostReset : Bool
deriving DecidableEq, Repr

/-- The geometry (R11), in spans. -/
structure Geometry where
  memSize : Nat
  spareBase : Nat
  spareCount : Nat
deriving DecidableEq, Repr

/-- The parameters of Table 11-2. -/
structure Params where
  fixedThreshold : Nat
  failedThreshold : Nat
  autoRetire : Bool
  retryLimit : Nat
  sweepInterval : Nat
  accelThreshold : Nat
  sweepEnable : Bool
  scrubPoison : Bool
  bgShare : Nat
  logCorrected : Bool
  /-- Bit order of R164: bit 0 CORRECTED to bit 7 QUEUE. -/
  alertMask : BitVec 8
deriving DecidableEq, Repr

/-! ### The Remap Table -/

/-- A physical line: a physical span and a line offset (R10). -/
structure PhysLine where
  span : Nat
  off : Nat
deriving DecidableEq, Repr

/-- The states of an entry other than FREE (Table 2-1). -/
inductive Stage where
  | copying | committing | aborting | active
deriving DecidableEq, Repr

/-- Why an entry, or a queued span, exists (Table 2-1, R89). -/
inductive RetireOrigin where
  | auto | command | resumed | restored
deriving DecidableEq, Repr

/-- The fields of an entry that is not FREE (R14). -/
structure Binding where
  stage : Stage
  span : Nat
  slot : Nat
  copied : Nat
  origin : RetireOrigin
  journaled : Bool
  poisoned : Nat
deriving DecidableEq, Repr

/-- The 128 entries; `none` is FREE, which holds no binding (R14). -/
abbrev Remap := Vector (Option Binding) 128

/-! ### Requests and the ports -/

/-- A host request's kind with its data and mask (Table 3-1). -/
inductive HostOp where
  | read
  | write (data : LineData) (mask : ByteMask)
deriving DecidableEq, Repr

/-- The places of an outstanding request (Table 3-4); LADDER names its ladder. -/
inductive Place where
  | queued | held | inFlight
  | ladder (k : Fin 4)
deriving DecidableEq, Repr

/-- The result of one half of a write (Table 3-3). -/
inductive HalfResult where
  | pending | done | failed
deriving DecidableEq, Repr

/-- Which half of a host write: the source (or only) location, or the slot location of a dual write. -/
inductive Half where
  | source | slot
deriving DecidableEq, Repr

/-- Where a host request resolves to: one physical line, and for a dual write the slot line too (R28). -/
structure Resolution where
  first : PhysLine
  second : Option PhysLine
deriving DecidableEq, Repr

/-- An outstanding host request (Table 3-3). -/
structure HostRec where
  op : HostOp
  line : HostLine
  place : Place
  resolution : Option Resolution
  /-- Half result of the source (or only) location; absent for a read and before resolution. -/
  sourceHalf : Option HalfResult
  /-- Half result of the slot location; absent unless the write is dual. -/
  slotHalf : Option HalfResult
  /-- Place among the requests the host port has taken (R57). -/
  arrival : Nat
deriving DecidableEq, Repr

/-- The kind of a downstream request, with the fields of a WRITE (Table 5-1). -/
inductive DownBody where
  | read
  | write (data : LineData) (mask : ByteMask) (poison : Bool)
deriving DecidableEq, Repr

/-- The conditions of a READ other than ERROR (Table 5-2): reports about the data. -/
inductive ReadResult where
  | clean | fixed | failed | poisoned
deriving DecidableEq, Repr

/-- A downstream request (Table 5-1). -/
structure DownReq where
  line : PhysLine
  body : DownBody
deriving DecidableEq, Repr

/-- Who a downstream request belongs to (R69). A host originator carries the count of host-path resets at
the time it was made: a request is abandoned when a host-path reset has come since (R50). -/
inductive Originator where
  | hostRead (tag : HostTag) (era : Nat)
  | ladderRetry (k : Fin 4) (tag : HostTag) (era : Nat)
  | hostWrite (tag : HostTag) (half : Half) (era : Nat)
  /-- A write of an abandoned request, which carries no host tag (R50). -/
  | orphan
  | copyRead | copyRetry | copyWrite
  | sweepRead | sweepRetry | sweepWrite
deriving DecidableEq, Repr

/-- A downstream request with its originator and its try: first issue or reissue (R69). -/
structure Issue where
  req : DownReq
  origin : Originator
  reissue : Bool
deriving DecidableEq, Repr

/-- A read-retry ladder of the host port (R45). -/
structure Ladder where
  tag : HostTag
  line : PhysLine
  used : Nat
  limit : Nat
deriving DecidableEq, Repr

/-- Outcomes of READ DATA (Table 3-2). -/
inductive ReadOutcome where
  | good | poisoned | refused
deriving DecidableEq, Repr

/-- Outcomes of WRITE DONE (Table 3-2). -/
inductive WriteOutcome where
  | done | refused | dropped
deriving DecidableEq, Repr

/-- An upstream response (R34). -/
inductive UpResponse where
  | readData (tag : HostTag) (outcome : ReadOutcome) (data : LineData) (contain : Bool)
  | writeDone (tag : HostTag) (outcome : WriteOutcome) (contain : Bool)
deriving DecidableEq, Repr

/-- The upstream line port (chapter 3). The host issue queue is its follow-on items and then its request
items, each list in the order the items joined (R40). -/
structure HostPort where
  recs : Vector (Option HostRec) 32
  followOns : List Issue
  requests : List HostTag
  /-- The first request item waits for room in the Hold List (R59). -/
  headWaits : Bool
  ladders : Vector (Option Ladder) 4
  /-- The model's own: host-path resets since the full reset. -/
  era : Nat
  /-- The model's own: requests taken since the full reset, the source of arrival order (R57). -/
  arrivals : Nat
  /-- The model's own: every upstream response sent since the full reset, oldest first. -/
  sent : List UpResponse
deriving DecidableEq, Repr

/-- A holder of line locks (R53). -/
inductive Holder where
  | copy | sweep
  | ladder (k : Fin 4)
deriving DecidableEq, Repr

/-- The Line Lock Set, by holder: each holder holds at most one line (R53). A physical line is locked while
some holder holds it; its holder set is the holders that hold it. -/
structure Locks where
  copy : Option PhysLine
  sweep : Option PhysLine
  ladders : Vector (Option PhysLine) 4
deriving DecidableEq, Repr

/-- The state of a downstream tag (R69); the timer of an IN USE tag runs. -/
inductive TagState where
  | free
  | inUse (issue : Issue)
  | quarantined
deriving DecidableEq, Repr

/-- The downstream line port: its tags and the background share counter (R69, R75). -/
structure Port where
  tags : Vector TagState 64
  share : Nat
deriving DecidableEq, Repr

/-! ### Health Table and Retirement Queue -/

/-- An entry of the Health Table (Table 6-1). -/
structure HealthEntry where
  span : Nat
  /-- Kind SPARE; HOST otherwise. -/
  spare : Bool
  fixed : Nat
  failed : Nat
  firstSeen : BitVec 16
  lastSeen : BitVec 16
  reported : Bool
deriving DecidableEq, Repr

/-- The 64 places; `none` is empty (R78). -/
abbrev Health := Vector (Option HealthEntry) 64

/-- An entry of the Retirement Queue (R89). -/
structure Queued where
  span : Nat
  origin : RetireOrigin
deriving DecidableEq, Repr

/-! ### Copy engine and sweep unit -/

/-- The states of the copy engine (Table 7-1). -/
inductive CopyState where
  | idle | beginning | lineRead | lineRetry | lineWrite | committing | aborting
deriving DecidableEq, Repr

/-- Why a copy's slot write carries the poison mark, if it does (Table 7-1). -/
inductive WriteKind where
  | plain | poisonFailed | poisonCarried
deriving DecidableEq, Repr

/-- Why a copy is aborted (Table 7-1). -/
inductive AbortCause where
  | command | fence
deriving DecidableEq, Repr

/-- A retry ladder of the copy engine or the sweep: retries used and retry limit taken. -/
structure Retry where
  used : Nat
  limit : Nat
deriving DecidableEq, Repr

/-- What a background originator has ready or at memory (R74): at most one request. -/
inductive BgRequest where
  | absent
  | presented (issue : Issue)
  | atMemory
deriving DecidableEq, Repr

/-- The entry index, span and slot of the copy under way (Table 7-1). -/
structure CopyJob where
  entry : Fin 128
  span : Nat
  slot : Nat
deriving DecidableEq, Repr

/-- The copy context (Table 7-1). The step result that R94 lists is no field of Table 7-1 and none here: it
shows in `stepInFlight` and `writeKind` (DEDUCED, notes/assumptions/24.md). -/
structure CopyCtx where
  state : CopyState
  job : Option CopyJob
  cursor : Nat
  data : Option LineData
  writeKind : Option WriteKind
  retry : Option Retry
  cause : Option AbortCause
  stepInFlight : Bool
  exhausted : Bool
  /-- The copy engine's downstream request (R74). -/
  request : BgRequest
  /-- The CANCEL record of an abort has been written or skipped (R21). -/
  cancelDone : Bool
deriving DecidableEq, Repr

/-- The states of the sweep unit (Table 8-1). -/
inductive SweepState where
  | stopped | waiting | reading | retrying | writingBack
deriving DecidableEq, Repr

/-- The pass statistics (Table 8-1). -/
structure PassStats where
  linesRead : BitVec 32
  fixed : BitVec 32
  failed : BitVec 32
  skipped : BitVec 32
  poisonedFound : BitVec 32
deriving DecidableEq, Repr

/-- The sweep unit (Table 8-1). -/
structure Sweep where
  state : SweepState
  /-- A host line. -/
  position : Nat
  line : Option PhysLine
  pass : BitVec 16
  stats : PassStats
  /-- Microseconds between lines in this pass. -/
  interval : Nat
  accelerated : Bool
  tableFull : Bool
  data : Option LineData
  retry : Option Retry
  stopPending : Bool
  positionHeld : Bool
  /-- The interval timer (R115): absent while it does not run, else the microseconds it was started with. -/
  timer : Option Nat
  /-- The sweep's downstream request (R74). -/
  request : BgRequest
  /-- The model's own: how often a pass statistic has risen past its range (notes/assumptions/10.md). -/
  freeIndex : Nat
deriving DecidableEq, Repr

/-! ### Journal controller -/

/-- The two journal sectors (R128). -/
inductive HalfId where
  | a | b
deriving DecidableEq, Repr

/-- The store state (R129). -/
inductive Store where
  | disabled | offline | online
deriving DecidableEq, Repr

/-- The kinds of record other than HEADER (Table 9-2). -/
inductive RecordKind where
  | beginRec | assignRec | cancelRec
deriving DecidableEq, Repr

/-- A BEGIN, ASSIGN or CANCEL record without its sequence, which is its position (Table 9-2). -/
structure JRecord where
  kind : RecordKind
  span : Nat
  slot : Nat
  poisoned : Nat
deriving DecidableEq, Repr

/-- A HEADER record (Table 9-2). -/
structure Header where
  epoch : Nat
  geom : Geometry
deriving DecidableEq, Repr

/-- A request of the request list (R131). -/
inductive JRequest where
  | record (r : JRecord)
  | geometry | attach | detach
deriving DecidableEq, Repr

/-- What began a compaction (R133). -/
inductive CompactCause where
  | append | geometry | attach
deriving DecidableEq, Repr

/-- The stage of a compaction (Table 9-3); the snapshot stage names the record being programmed. -/
inductive CompactStep where
  | erasing
  | snapshot (i : Nat)
  | header
deriving DecidableEq, Repr

/-- An open (span, slot) pair of replay (R136). -/
structure OpenPair where
  span : Nat
  slot : Nat
deriving DecidableEq, Repr

/-- What the journal controller is doing. It gives the controller state and the compaction step of
Table 9-3 (`journalState`, `compactionStep`) and how far the work has come. -/
inductive Task where
  | idle
  | hold
  /-- Replay reads the headers; `got` is half A's header position once it is read (R135). -/
  | replayHeaders (got : Option (List Byte))
  /-- Replay reads the record at `pos` next (R136). -/
  | replayRecords (pos : Nat) (openList : List OpenPair)
  /-- Blank-store initialisation: half A is erased (R135). -/
  | initErase
  /-- Blank-store initialisation: the header of half A is programmed (R135). -/
  | initHeader
  /-- CLEAN_START reads the headers (R138). -/
  | cleanHeaders (got : Option (List Byte))
  /-- CLEAN_START erases `now`, and `later` after it (R138). -/
  | cleanErase (now : HalfId) (later : Option HalfId)
  /-- CLEAN_START programs the header of half A (R138). -/
  | cleanHeader
  /-- The record at the head of the request list is programmed (R132). -/
  | append
  | compact (cause : CompactCause) (target : HalfId) (step : CompactStep)
  /-- An attach waits for a ready store (R141). -/
  | attachReady
  /-- An attach reads the headers (R141). -/
  | attachHeaders (got : Option (List Byte))
  /-- An attach programs the reconciliation record `rec`; `written` is what the live half holds (R141). -/
  | reconcile (written : List JRecord) (record : JRecord)
  /-- A raw session is open (R143). -/
  | raw
deriving DecidableEq, Repr

/-- The journal controller (Table 9-3). -/
structure Journal where
  task : Task
  store : Store
  live : Option HalfId
  epoch : Nat
  next : Nat
  requests : List JRequest
  snapshot : Option (List JRecord)
deriving DecidableEq, Repr

/-! ### Events, link, statistics -/

/-- The event kinds (Table 11-9). -/
inductive EventKind where
  | corrected | transient | uncorrectable | poisonWritten | lineCarriedPoison | threshold
  | retireQueued | retireDeferred | retireStarted | retireDone | retireCancelled | copyResumed
  | spareExhausted | spareDegraded | healthTableFull | storeFault | journalCompacted | recordTorn
  | replayConflict | memoryError | fenced | tagQuarantined | hostProtocol | hostReset
  | sweepPassDone | lost
deriving DecidableEq, Repr

/-- The sources of an event (Table 10-1). -/
inductive Source where
  | none | host | copy | sweep | journal | link | port
deriving DecidableEq, Repr

/-- An event as a block offers it (Table 10-1). -/
structure Event where
  kind : EventKind
  source : Source
  span : Option Nat
  offset : Option Nat
  slot : Option Nat
  value : Option Nat
deriving DecidableEq, Repr

/-- An event record as the queue stores it (Table 10-1). -/
structure EventRecord where
  seq : BitVec 16
  event : Event
  pass : BitVec 16
deriving DecidableEq, Repr

/-- The Event Queue and the alert flags (R144, R151). -/
structure Events where
  records : List EventRecord
  seq : BitVec 16
  lost : Nat
  /-- Bit order of R164: bit 0 CORRECTED to bit 7 QUEUE. -/
  flags : BitVec 8
deriving DecidableEq, Repr

/-- Response codes (Table 11-1). -/
inductive RespCode where
  | ok | badCheck | badFrame | unknown | badParam | refusedState | refusedInUse | queueFull
  | duplicate | notFound | tooLate | noSession | sessionOpen
deriving DecidableEq, Repr

/-- A response without its length and check bytes, which follow from it (R157). -/
structure Response where
  code : RespCode
  payload : List Byte
deriving DecidableEq, Repr

/-- A RAW_SHIFT whose bytes are being shifted (R143). -/
structure RawShift where
  bytes : List Byte
  close : Bool
deriving DecidableEq, Repr

/-- The management link (R157). -/
structure Link where
  busy : Bool
  response : Option Response
  raw : Option RawShift
deriving DecidableEq, Repr

/-- The six statistics counters (R163). -/
structure Stats where
  hostReads : BitVec 32
  hostWrites : BitVec 32
  hostRefusals : BitVec 32
  holds : BitVec 32
  finalFailedReads : BitVec 32
  transientRecoveries : BitVec 32
deriving DecidableEq, Repr

/-! ### The state -/

/-- The state of the part. -/
structure State where
  mode : Mode
  pins : Pins
  geom : Geometry
  params : Params
  remap : Remap
  host : HostPort
  locks : Locks
  /-- The Hold List, by tag, in arrival order; the held request itself is the tag's record (R57). -/
  hold : List HostTag
  port : Port
  health : Health
  retire : List Queued
  copy : CopyCtx
  sweep : Sweep
  journal : Journal
  events : Events
  link : Link
  stats : Stats
  /-- The model's own: the commands that wait, first in first out. -/
  pending : List Instr
deriving DecidableEq, Repr

def State.setMode (s : State) (v : Mode) : State := { s with mode := v }
def State.setPins (s : State) (v : Pins) : State := { s with pins := v }
def State.setGeom (s : State) (v : Geometry) : State := { s with geom := v }
def State.setParams (s : State) (v : Params) : State := { s with params := v }
def State.setRemap (s : State) (v : Remap) : State := { s with remap := v }
def State.setHost (s : State) (v : HostPort) : State := { s with host := v }
def State.setLocks (s : State) (v : Locks) : State := { s with locks := v }
def State.setHold (s : State) (v : List HostTag) : State := { s with hold := v }
def State.setPort (s : State) (v : Port) : State := { s with port := v }
def State.setHealth (s : State) (v : Health) : State := { s with health := v }
def State.setRetire (s : State) (v : List Queued) : State := { s with retire := v }
def State.setCopy (s : State) (v : CopyCtx) : State := { s with copy := v }
def State.setSweep (s : State) (v : Sweep) : State := { s with sweep := v }
def State.setJournal (s : State) (v : Journal) : State := { s with journal := v }
def State.setEvents (s : State) (v : Events) : State := { s with events := v }
def State.setLink (s : State) (v : Link) : State := { s with link := v }
def State.setStats (s : State) (v : Stats) : State := { s with stats := v }
def State.setPending (s : State) (v : List Instr) : State := { s with pending := v }

/-! ### Reset values -/

/-- The default geometry (R11). -/
def defaultGeometry : Geometry := { memSize := 4194304, spareBase := 0, spareCount := 0 }

/-- The parameter defaults of Table 11-2 (R161). -/
def defaultParams : Params :=
  { fixedThreshold := 16, failedThreshold := 1, autoRetire := true, retryLimit := 2, sweepInterval := 64,
    accelThreshold := 0, sweepEnable := true, scrubPoison := true, bgShare := 4, logCorrected := false,
    alertMask := 0 }

/-- The host port after a full reset (R35, R40). -/
def freshHost : HostPort :=
  { recs := Vector.replicate 32 none, followOns := [], requests := [], headWaits := false,
    ladders := Vector.replicate 4 none, era := 0, arrivals := 0, sent := [] }

/-- The Line Lock Set after a full reset (R64). -/
def freshLocks : Locks := { copy := none, sweep := none, ladders := Vector.replicate 4 none }

/-- The memory port after a full reset (R77). -/
def freshPort : Port := { tags := Vector.replicate 64 .free, share := 0 }

/-- The copy context in IDLE, with the exhaustion-reported flag given (R94). -/
def idleCopy (exhausted : Bool) : CopyCtx :=
  { state := .idle, job := none, cursor := 0, data := none, writeKind := none, retry := none,
    cause := none, stepInFlight := false, exhausted := exhausted, request := .absent, cancelDone := false }

/-- All five pass statistics at 0 (R113). -/
def zeroPassStats : PassStats :=
  { linesRead := 0, fixed := 0, failed := 0, skipped := 0, poisonedFound := 0 }

/-- The sweep unit after a full reset (R113). -/
def freshSweep : Sweep :=
  { state := .waiting, position := 0, line := none, pass := 0, stats := zeroPassStats, interval := 64,
    accelerated := false, tableFull := false, data := none, retry := none, stopPending := false,
    positionHeld := false, timer := none, request := .absent, freeIndex := 0 }

/-- The journal controller after a full reset, in HOLD (R130). -/
def freshJournal (storeEn : Bool) : Journal :=
  { task := .hold, store := if storeEn then .offline else .disabled, live := none, epoch := 0, next := 1,
    requests := [], snapshot := none }

/-- The Event Queue and alert flags after a full reset (R144, R151). -/
def freshEvents : Events := { records := [], seq := 0, lost := 0, flags := 0 }

/-- The management link after a full reset (R157). -/
def freshLink : Link := { busy := false, response := none, raw := none }

/-- All six statistics counters at 0 (R163). -/
def zeroStats : Stats :=
  { hostReads := 0, hostWrites := 0, hostRefusals := 0, holds := 0, finalFailedReads := 0,
    transientRecoveries := 0 }

/-- Every block as a full reset leaves it, with the straps as sampled and the journal controller in HOLD,
where a part strapped HOLD high stays (R1). -/
def State.fresh (hold storeEn : Bool) (addr : BitVec 2) : State :=
  { mode := .startup
    pins := { hold := hold, storeEn := storeEn, addr := addr, hostReset := false }
    geom := defaultGeometry
    params := defaultParams
    remap := Vector.replicate 128 none
    host := freshHost
    locks := freshLocks
    hold := []
    port := freshPort
    health := Vector.replicate 64 none
    retire := []
    copy := idleCopy false
    sweep := freshSweep
    journal := freshJournal storeEn
    events := freshEvents
    link := freshLink
    stats := zeroStats
    pending := [] }

/-- The machine after a full reset with HOLD and STORE_EN high and ADDR 00, the straps of the bring-up of
section 12.2 (DESIGN CHOICE, notes/assumptions/1.md): STARTUP, journal HOLD, store OFFLINE. -/
def State.reset : State := State.fresh true true 0

end Sys2Proof.Machine
end

