-- ==== Sys2Proof/Machine/Flags.lean ====
section
/-! DEFINITION. The Event Queue's store-or-lose rule with the alert flags it sets (R145 to R147, R151), the
ALERT line (R153), the accept signal (R36) and the status byte (R158). -/

namespace Sys2Proof.Machine

/-- The bit of an event kind's alert category (Table 10-2, R164). -/
def categoryBit : EventKind → Nat
  | .corrected | .transient => 0
  | .uncorrectable | .poisonWritten | .lineCarriedPoison => 1
  | .threshold | .retireQueued | .retireDeferred | .retireStarted | .retireDone | .retireCancelled
  | .copyResumed => 2
  | .spareExhausted | .spareDegraded | .healthTableFull => 3
  | .storeFault | .journalCompacted | .recordTorn | .replayConflict => 4
  | .memoryError | .fenced | .tagQuarantined | .hostProtocol | .hostReset => 5
  | .sweepPassDone => 6
  | .lost => 7

/-- The flag byte with one category's flag set (R151). -/
def setFlag (flags : BitVec 8) (bit : Nat) : BitVec 8 := flags ||| (1#8 <<< bit)

/-- The LOST record's event (R147). -/
def lostEvent (count : Nat) : Event :=
  { kind := .lost, source := .none, span := none, offset := none, slot := none, value := some count }

/-- A record stored at the back with the next sequence number (R145). -/
def storeRecord (pass : BitVec 16) (e : Event) (q : Events) : Events :=
  { q with records := q.records ++ [⟨q.seq, e, pass⟩], seq := q.seq + 1 }

/-- An offered event lost: the lost count rises, to 255 at most, and the first loss sets QUEUE (R146). -/
def loseRecord (q : Events) : Events :=
  { q with lost := min 255 (q.lost + 1), flags := if q.lost = 0 then setFlag q.flags 7 else q.flags }

/-- An event stored if the queue has room, else lost (R145, R146). -/
def storeOrLose (pass : BitVec 16) (e : Event) (q : Events) : Events :=
  if q.records.length < 32 then storeRecord pass e q else loseRecord q

/-- The LOST record that stands ahead of an offered event, when there is room and a loss to report (R147). -/
def reportLost (pass : BitVec 16) (q : Events) : Events :=
  if 0 < q.lost ∧ q.records.length < 32 then
    { storeRecord pass (lostEvent q.lost) q with lost := 0 }
  else q

/-- What an offered event does to the queue and the flags (R145, R146, R147, R151). -/
def offerEvent (pass : BitVec 16) (e : Event) (q : Events) : Events :=
  storeOrLose pass e (reportLost pass { q with flags := setFlag q.flags (categoryBit e.kind) })

/-- ALERT is driven low: a flag is set whose mask bit is clear (R153). -/
def alertLow (s : State) : Bool := s.events.flags &&& ~~~s.params.alertMask != 0

/-- The host port gives its accept signal (R36). -/
def accept (s : State) : Bool :=
  s.mode != .startup && !s.pins.hostReset && decide (s.hold.length < 8)
    && decide (s.host.requests.length < 32)

/-- The MODE field of the status byte (Table 11-6). -/
def modeCode : Mode → Nat
  | .startup => 0
  | .online => 1
  | .fenced => 2

/-- The status byte as it stands (R158, Table 11-6). -/
def statusByte (s : State) : Byte :=
  BitVec.ofNat 8
    (s.link.busy.toNat + 2 * s.link.response.isSome.toNat + 4 * (alertLow s).toNat
      + 8 * (!s.events.records.isEmpty).toNat + 16 * modeCode s.mode
      + 64 * (s.journal.store == .online).toNat + 128 * (s.journal.task == .hold).toNat)

end Sys2Proof.Machine
end

