-- ==== Sys2Proof/Machine/Ops.lean ====
section
/-! DEFINITION. The operations that several blocks share: offering an event, the geometry tests, the
Remap Table's look-ups and resolution, the Line Lock Set, the Hold List, and the answers to the host. -/

namespace Sys2Proof.Machine

/-! ### Events -/

/-- A block offers an event; its record carries the sweep's pass number (R145). -/
def offer (e : Event) (s : State) : State := s.setEvents (offerEvent s.sweep.pass e s.events)

/-- An event that names a physical line, or a source line, with its value (Table 10-3). -/
def lineEvent (kind : EventKind) (source : Source) (p : PhysLine) (value : Option Nat) : Event :=
  { kind := kind, source := source, span := some p.span, offset := some p.off, slot := none, value := value }

/-- An event that names a span, with its slot and value (Table 10-3). -/
def spanEvent (kind : EventKind) (source : Source) (span : Nat) (slot value : Option Nat) : Event :=
  { kind := kind, source := source, span := some span, offset := none, slot := slot, value := value }

/-! ### Geometry and lines -/

/-- A geometry is valid (R11). -/
def Geometry.valid (g : Geometry) : Bool :=
  decide (1 ≤ g.memSize) && decide (g.memSize ≤ 4194304) && decide (g.spareCount ≤ 128)
    && decide (g.spareBase < g.memSize) && decide (g.spareBase + g.spareCount ≤ g.memSize)

/-- A span is in the spare pool (R12). -/
def Geometry.inPool (g : Geometry) (span : Nat) : Bool :=
  decide (0 < g.spareCount) && decide (g.spareBase ≤ span) && decide (span < g.spareBase + g.spareCount)

/-- The physical span of a slot (R12). -/
def Geometry.slotSpan (g : Geometry) (slot : Nat) : Nat := g.spareBase + slot

/-- A span may be a source span: below memory size and outside the pool (R13). -/
def Geometry.usable (g : Geometry) (span : Nat) : Bool := decide (span < g.memSize) && !g.inPool span

/-- The span and offset of a host line (R10). -/
def physOfLine (line : Nat) : PhysLine := ⟨line / 64, line % 64⟩

/-- The number by which the downstream port addresses a physical line (R10). -/
def lineNumber (p : PhysLine) : Nat := p.span * 64 + p.off

/-! ### The Remap Table -/

/-- The entry whose span is the one named (R32). -/
def findEntry (r : Remap) (span : Nat) : Option (Fin 128) :=
  lowestIndex (fun e => e.any (fun b => b.span == span)) r

/-- The binding of a span, if it has an entry (R28). -/
def bindingOf (r : Remap) (span : Nat) : Option Binding := (findEntry r span).bind (fun i => r[i])

/-- The binding that holds a slot (R26). -/
def bindingOfSlot (r : Remap) (slot : Nat) : Option Binding :=
  (lowestIndex (fun e => e.any (fun b => b.slot == slot)) r).bind (fun i => r[i])

/-- The lowest free slot (R16, R26). -/
def freeSlot (g : Geometry) (r : Remap) : Option Nat :=
  (List.range g.spareCount).find? (fun k => (bindingOfSlot r k).isNone)

/-- The FREE entry with the lowest index (R16, R22). -/
def freeEntry (r : Remap) : Option (Fin 128) := lowestIndex Option.isNone r

/-- An entry in COPYING, COMMITTING or ABORTING. -/
def underCopy (e : Option Binding) : Bool := e.any (fun b => b.stage != .active)

/-- The entry the copy engine works on, changed by `f`; an entry that is FREE or ACTIVE is not touched. -/
def modifyEntry (i : Fin 128) (f : Binding → Binding) (r : Remap) : Remap :=
  match r[i] with
  | some b => if b.stage = .active then r else r.set i (some (f b))
  | none => r

/-- Every ACTIVE entry's journaled flag set to `v` (R24). -/
def journalFlags (v : Bool) (r : Remap) : Remap :=
  tableMap (fun e => e.map (fun b => if b.stage = .active then { b with journaled := v } else b)) r

/-- Where a host request for a line resolves to (R28, Table 2-4). -/
def resolve (g : Geometry) (r : Remap) (isWrite : Bool) (line : HostLine) : Resolution :=
  let src := physOfLine line.toNat
  match bindingOf r src.span with
  | none => ⟨src, none⟩
  | some b =>
    let slotLine : PhysLine := ⟨g.slotSpan b.slot, src.off⟩
    match b.stage with
    | .active => ⟨slotLine, none⟩
    | .committing => if isWrite then ⟨src, some slotLine⟩ else ⟨src, none⟩
    | .copying | .aborting =>
      if isWrite && decide (src.off < b.copied) then ⟨src, some slotLine⟩ else ⟨src, none⟩

/-! ### The Line Lock Set -/

/-- The six holders (R53). -/
def allHolders : List Holder := [.copy, .sweep, .ladder 0, .ladder 1, .ladder 2, .ladder 3]

/-- The line a holder holds (R53). -/
def Locks.lineOf (l : Locks) : Holder → Option PhysLine
  | .copy => l.copy
  | .sweep => l.sweep
  | .ladder k => l.ladders[k]

/-- The line a holder holds set to `v`. -/
def Locks.setLine (l : Locks) (h : Holder) (v : Option PhysLine) : Locks :=
  match h with
  | .copy => { l with copy := v }
  | .sweep => { l with sweep := v }
  | .ladder k => { l with ladders := l.ladders.set k v }

/-- The holder set of a line's lock record; empty when there is no record (R53). -/
def Locks.holders (l : Locks) (p : PhysLine) : List Holder :=
  allHolders.filter (fun h => l.lineOf h == some p)

/-- A physical line is locked (R53). -/
def Locks.locked (l : Locks) (p : PhysLine) : Bool := !(l.holders p).isEmpty

/-- A write's location is locked: its line, or either line of a dual write (R56). -/
def Locks.lockedAt (l : Locks) (r : Resolution) : Bool := l.locked r.first || r.second.any l.locked

/-- A holder is added to a line, making its record or joining it (R54). -/
def addHolder (h : Holder) (p : PhysLine) (s : State) : State := s.setLocks (s.locks.setLine h (some p))

/-- The host line that a physical line serves (R56). -/
def servedLine (s : State) (p : PhysLine) : Option Nat :=
  if s.geom.inPool p.span then
    (bindingOfSlot s.remap (p.span - s.geom.spareBase)).map (fun b => b.span * 64 + p.off)
  else some (lineNumber p)

/-! ### Host records and answers -/

/-- The record of a tag set. -/
def setRecord (tag : HostTag) (r : Option HostRec) (s : State) : State :=
  s.setHost { s.host with recs := s.host.recs.set tag r }

/-- The record of a tag changed, if it is outstanding. -/
def modifyRecord (tag : HostTag) (f : HostRec → HostRec) (s : State) : State :=
  setRecord tag (s.host.recs[tag].map f) s

/-- Every tag of a list given a place (Table 3-4). -/
def placeAll (tags : List HostTag) (p : Place) (recs : Vector (Option HostRec) 32) :
    Vector (Option HostRec) 32 :=
  tags.foldl (fun v (t : HostTag) => v.set t (v[t].map (fun r => { r with place := p }))) recs

/-- An upstream response is sent (R34). -/
def sendUp (r : UpResponse) (s : State) : State := s.setHost { s.host with sent := s.host.sent ++ [r] }

/-- Responses carry CONTAIN from entry to FENCED onward (R5). -/
def contain (s : State) : Bool := s.mode == .fenced

/-- READ DATA is sent and the tag's record becomes FREE (R34, R35). -/
def answerRead (tag : HostTag) (outcome : ReadOutcome) (data : LineData) (s : State) : State :=
  sendUp (.readData tag outcome data (contain s)) (setRecord tag none s)

/-- WRITE DONE is sent and the tag's record becomes FREE (R34, R35). -/
def answerWrite (tag : HostTag) (outcome : WriteOutcome) (s : State) : State :=
  sendUp (.writeDone tag outcome (contain s)) (setRecord tag none s)

/-- A record with one half result set. -/
def HostRec.setHalf (r : HostRec) (half : Half) (v : HalfResult) : HostRec :=
  match half with
  | .source => { r with sourceHalf := some v }
  | .slot => { r with slotHalf := some v }

/-- No half result is PENDING (R48, R49). -/
def HostRec.halvesSettled (r : HostRec) : Bool :=
  r.sourceHalf != some .pending && r.slotHalf != some .pending

/-- The outcome of a write whose halves are settled: DONE unless a half FAILED (R49). -/
def HostRec.writeOutcome (r : HostRec) : WriteOutcome :=
  if r.sourceHalf = some .failed ∨ r.slotHalf = some .failed then .dropped else .done

/-- A half of a host write leaves PENDING; the write is answered when both halves have (R48, R49). -/
def finishHalf (tag : HostTag) (half : Half) (v : HalfResult) (s : State) : State :=
  match s.host.recs[tag] with
  | none => s
  | some r =>
    let r' := r.setHalf half v
    if r'.halvesSettled then answerWrite tag r'.writeOutcome s else setRecord tag (some r') s

/-! ### The Hold List -/

/-- The record of a tag is for the host line numbered `line`. -/
def HostPort.isFor (h : HostPort) (line : Nat) (tag : HostTag) : Bool :=
  h.recs[tag].any (fun r => r.line.toNat == line)

/-- The arrival order of a tag's request (R57). -/
def HostPort.arrivalOf (h : HostPort) (tag : HostTag) : Nat := (h.recs[tag].map HostRec.arrival).getD 0

/-- A held request put at its place by arrival order (R57). -/
def insertHeld (h : HostPort) (tag : HostTag) : List HostTag → List HostTag
  | [] => [tag]
  | t :: rest =>
    if h.arrivalOf tag < h.arrivalOf t then tag :: t :: rest else t :: insertHeld h tag rest

/-- The requests held for a host line go to the tail of the request items (R60). -/
def releaseLine (line : Nat) (s : State) : State :=
  let out := s.hold.filter (s.host.isFor line)
  let s := s.setHold (s.hold.filter (fun t => !s.host.isFor line t))
  s.setHost { s.host with
    requests := s.host.requests ++ out
    recs := placeAll out .queued s.host.recs }

/-- Requests entering the Hold List by diversion, and the holds statistic (R59, R63). -/
def holdTags (tags : List HostTag) (s : State) : State :=
  let s := s.setHold (tags.foldl (fun l t => insertHeld s.host t l) s.hold)
  let s := s.setStats { s.stats with holds := s.stats.holds + BitVec.ofNat 32 tags.length }
  s.setHost { s.host with recs := placeAll tags .held s.host.recs }

/-- The request item of kind LINE WRITE at the front of the request items, with its record (R59). -/
def headWrite (s : State) : Option (HostTag × HostRec) :=
  match s.host.requests with
  | [] => none
  | t :: _ =>
    match s.host.recs[t] with
    | some r => if r.op = .read then none else some (t, r)
    | none => none

/-- The head write's location, resolved now, is locked (R59). -/
def headLocked (s : State) : Bool :=
  (headWrite s).any (fun h => s.locks.lockedAt (resolve s.geom s.remap true h.2.line))

/-- The head write and the later request items for its host line, which a diversion carries (R59). -/
def divertedTags (s : State) : List HostTag :=
  match headWrite s with
  | none => []
  | some (_, r) => s.host.requests.filter (s.host.isFor r.line.toNat)

/-- A locked head write is diverted with what it carries, or waits when the list lacks room (R59). -/
def divertHead (s : State) : State :=
  let tags := divertedTags s
  if s.hold.length + tags.length ≤ 8 then
    let s := s.setHost { s.host with
      requests := s.host.requests.filter (fun t => !tags.contains t)
      headWaits := false }
    holdTags tags s
  else s.setHost { s.host with headWaits := true }

/-- A waiting head is checked again (R59). -/
def recheckHead (s : State) : State :=
  if s.host.headWaits then
    if headLocked s then divertHead s else s.setHost { s.host with headWaits := false }
  else s

/-- A holder leaves its line; with the last holder the record goes, the held requests of the host line it
serves are released and a waiting head is checked again (R55, R60). That a step which removes two records checks
the head after each removal, and not once for both, is the model's choice (DESIGN CHOICE,
notes/assumptions/27.md). -/
def removeHolder (h : Holder) (s : State) : State :=
  match s.locks.lineOf h with
  | none => s
  | some p =>
    let s := s.setLocks (s.locks.setLine h none)
    if s.locks.locked p then s
    else
      match servedLine s p with
      | some line => recheckHead (releaseLine line s)
      | none => recheckHead s

/-! ### The management link's answers -/

/-- A frame is taken: the previous response goes and the link is BUSY (R157). -/
def takeFrame (s : State) : State := s.setLink { busy := true, response := none, raw := none }

/-- The command's answer is made: the response is placed, BUSY clears (R157). -/
def answer (code : RespCode) (payload : List Byte) (s : State) : State :=
  s.setLink { busy := false, response := some ⟨code, payload⟩, raw := none }

/-! ### Writes in flight -/

/-- The request is a WRITE. -/
def DownReq.isWrite (r : DownReq) : Bool := r.body != .read

/-- The originator is a host write half or an orphan write. -/
def Originator.isHostWrite : Originator → Bool
  | .hostWrite _ _ _ | .orphan => true
  | _ => false

/-- The issue of an IN USE tag. -/
def TagState.issue : TagState → Option Issue
  | .inUse i => some i
  | _ => none

/-- The issues at memory: those of the IN USE tags. -/
def issuesAtMemory (p : Port) : List Issue := p.tags.toList.filterMap TagState.issue

/-- A host write is in flight at a physical line: granted there and not finally completed, an ERROR reissue
waiting in the queue included (R35). -/
def hostWriteAt (s : State) (p : PhysLine) : Bool :=
  (issuesAtMemory s.port).any (fun i => i.origin.isHostWrite && i.req.line == p)
    || s.host.followOns.any
      (fun i => i.origin.isHostWrite && i.req.isWrite && i.reissue && i.req.line == p)

/-- A slot half resolved to a physical line waits in the host issue queue for its grant (R117). -/
def slotHalfWaits (s : State) (p : PhysLine) : Bool :=
  s.host.followOns.any (fun i => i.origin.isHostWrite && i.req.isWrite && !i.reissue && i.req.line == p)

/-- The reissue that a background originator presents. -/
def BgRequest.presentedIssue : BgRequest → Option Issue
  | .presented i => some i
  | _ => none

/-- A downstream write addressed to a line of a physical span is in flight, one waiting for its reissue
included (R21). -/
def spanWriteInFlight (s : State) (span : Nat) : Bool :=
  let waiting := s.host.followOns ++ s.copy.request.presentedIssue.toList
    ++ s.sweep.request.presentedIssue.toList
  (issuesAtMemory s.port).any (fun i => i.req.isWrite && i.req.line.span == span)
    || waiting.any (fun i => i.req.isWrite && i.reissue && i.req.line.span == span)

end Sys2Proof.Machine
end

