-- ==== Sys2Proof/Machine/Records.lean ====
section
/-! DEFINITION. The journal's records as bytes (Table 11-10, R128), the choice of the live half (R128), and
the flash operations with the bytes they drive (Table 9-1). -/

namespace Sys2Proof.Machine

/-- The kind byte of a record (Table 11-10). -/
def kindByte : RecordKind → Byte
  | .beginRec => 0x02
  | .assignRec => 0x03
  | .cancelRec => 0x04

/-- The record kind of a kind byte, HEADER and undefined bytes apart (Table 11-10). -/
def kindOfByte (b : Byte) : Option RecordKind :=
  if b = 0x02 then some .beginRec
  else if b = 0x03 then some .assignRec
  else if b = 0x04 then some .cancelRec
  else none

/-- Fourteen bytes with their CRC behind them, least significant byte first (R164). -/
def withCrc (body : List Byte) : List Byte := body ++ leBytes 2 (crc16 body).toNat

/-- The CRC of a position is right (R128). -/
def crcOk (bytes : List Byte) : Bool :=
  leNat (bytes.drop 14) == (crc16 (bytes.take 14)).toNat && bytes.length == 16

/-- The 16 bytes of a BEGIN, ASSIGN or CANCEL record at a position (Table 11-10, R128). -/
def recordBytes (pos : Nat) (r : JRecord) : List Byte :=
  withCrc (kindByte r.kind :: leBytes 4 pos ++ leBytes 3 r.span
    ++ [byteOf r.slot, if r.kind = .assignRec then byteOf r.poisoned else 0, 0, 0, 0, 0])

/-- The 16 bytes of a HEADER (Table 11-10). -/
def headerBytes (h : Header) : List Byte :=
  withCrc (0x01 :: leBytes 4 h.epoch ++ leBytes 3 h.geom.memSize ++ leBytes 3 h.geom.spareBase
    ++ [byteOf h.geom.spareCount, 0, 0])

/-- A field of a position: `n` bytes from byte `at_` as a number, least significant byte first. -/
def field (bytes : List Byte) (at_ n : Nat) : Nat := leNat ((bytes.drop at_).take n)

/-- A position is empty: its bytes all read FFh (R128). -/
def isEmptyPosition (bytes : List Byte) : Bool := bytes.all (· == 0xFF)

/-- The good record of a position, or `none` when it is torn (R128). No range of a field is among the tests,
so the fields are the bytes as read (notes/assumptions/23.md). -/
def goodRecord (pos : Nat) (bytes : List Byte) : Option JRecord :=
  match kindOfByte (bytes.headD 0) with
  | none => none
  | some k =>
    if crcOk bytes ∧ field bytes 1 4 = pos then
      some { kind := k, span := field bytes 5 3, slot := field bytes 8 1,
             poisoned := if k = .assignRec then field bytes 9 1 else 0 }
    else none

/-- The header that a position's bytes spell, valid or not (Table 11-10). -/
def headerFields (bytes : List Byte) : Header :=
  { epoch := field bytes 1 4
    geom := { memSize := field bytes 5 3, spareBase := field bytes 8 3, spareCount := field bytes 11 1 } }

/-- The valid HEADER of a position 0, if it is one (R128). -/
def validHeader (bytes : List Byte) : Option Header :=
  if bytes.headD 0 = 0x01 ∧ crcOk bytes ∧ 1 ≤ (headerFields bytes).epoch ∧ (headerFields bytes).geom.valid then
    some (headerFields bytes)
  else none

/-- A HEADER position is damaged: not empty and not valid (R128). -/
def damagedHeader (bytes : List Byte) : Bool := !isEmptyPosition bytes && (validHeader bytes).isNone

/-- The live half with its header: the higher epoch, half A among equals (R128). -/
def chooseLive (a b : List Byte) : Option (HalfId × Header) :=
  match validHeader a, validHeader b with
  | none, none => none
  | some x, none => some (.a, x)
  | none, some y => some (.b, y)
  | some x, some y => if x.epoch < y.epoch then some (.b, y) else some (.a, x)

/-- The other half (R128). -/
def otherHalf : HalfId → HalfId
  | .a => .b
  | .b => .a

/-- The number of a half in an event's offset field: 0 for A, 1 for B (R150). -/
def halfNumber : HalfId → Nat
  | .a => 0
  | .b => 1

/-- The store address of a position of a half (R126). -/
def storeAddress (h : HalfId) (pos : Nat) : Nat := halfNumber h * 0x1000 + pos * 16

/-- A store address as driven: three bytes, most significant first (R126). -/
def addressBytes (addr : Nat) : List Byte := (leBytes 3 addr).reverse

/-- The bytes driven for a page program, one list for each time chip select is low (R127, Table 9-1). -/
def programDrive (h : HalfId) (pos : Nat) (bytes : List Byte) : List (List Byte) :=
  [[0x06], 0x02 :: addressBytes (storeAddress h pos) ++ bytes, [0x05]]

/-- The bytes driven for a sector erase (R127, Table 9-1). -/
def eraseDrive (h : HalfId) : List (List Byte) :=
  [[0x06], 0x20 :: addressBytes (storeAddress h 0), [0x05]]

/-- The bytes driven for a read of a position (Table 9-1). -/
def readDrive (h : HalfId) (pos : Nat) : List (List Byte) := [0x03 :: addressBytes (storeAddress h pos)]

/-- The records of a snapshot: ASSIGN for each ACTIVE entry in order of index, then BEGIN for the entry
under copy (R133). -/
def snapshotOf (r : Remap) : List JRecord :=
  let bound := r.toList.filterMap id
  (bound.filter (fun b => b.stage == .active)).map
      (fun b => { kind := .assignRec, span := b.span, slot := b.slot, poisoned := b.poisoned })
    ++ ((bound.filter (fun b => b.stage != .active)).map
      (fun b => { kind := .beginRec, span := b.span, slot := b.slot, poisoned := 0 })).take 1

/-- The half holds an ASSIGN record of a binding (R141). -/
def assignWritten (written : List JRecord) (b : Binding) : Bool :=
  written.any (fun r => r.kind == .assignRec && r.span == b.span && r.slot == b.slot)

/-- The BEGIN records that no later ASSIGN or CANCEL of their span follows (R141). -/
def openBegins : List JRecord → List JRecord
  | [] => []
  | r :: rest =>
    if r.kind = .beginRec ∧ ¬ rest.any (fun x => x.kind != .beginRec && x.span == r.span) then r :: openBegins rest
    else openBegins rest

/-- The reconciliation record an attach needs next: ASSIGN for an ACTIVE entry that has none, else CANCEL
for an open BEGIN whose span is not under copy (R141). -/
def reconcileNeed (r : Remap) (written : List JRecord) : Option JRecord :=
  let bound := r.toList.filterMap id
  match bound.find? (fun b => b.stage == .active && !assignWritten written b) with
  | some b => some { kind := .assignRec, span := b.span, slot := b.slot, poisoned := b.poisoned }
  | none =>
    ((openBegins written).find? (fun o => !bound.any (fun b => b.stage != .active && b.span == o.span))).map
      (fun o => { kind := .cancelRec, span := o.span, slot := o.slot, poisoned := 0 })

end Sys2Proof.Machine
end

