-- ==== Sys2Proof/Machine/HealthTable.lean ====
section
/-! DEFINITION. The Health Table (R78 to R88) and the Retirement Queue (R89 to R93): increments, the
threshold check, replacement, decay, and the admission of spans to the queue. -/

namespace Sys2Proof.Machine

/-! ### The Retirement Queue -/

/-- The outcome of the range, duplicate and room checks of R90. -/
inductive Admission where
  | taken | range | duplicate | room
deriving DecidableEq, Repr

/-- A span is in the queue (R89). -/
def isQueued (q : List Queued) (span : Nat) : Bool := q.any (fun e => e.span == span)

/-- Checks 2, 3 and 4 of R90, in that order. -/
def admission (s : State) (span : Nat) : Admission :=
  if !s.geom.usable span then .range
  else if isQueued s.retire span || (bindingOf s.remap span).isSome then .duplicate
  else if s.retire.length < 8 then .taken
  else .room

/-- A span appended at the tail with its origin (R90). -/
def enqueueSpan (span : Nat) (origin : RetireOrigin) (s : State) : State :=
  s.setRetire (s.retire ++ [⟨span, origin⟩])

/-- A span taken into the queue with its RETIRE_QUEUED event, whose value is its position (R91). -/
def takeSpan (span : Nat) (origin : RetireOrigin) (src : Source) (s : State) : State :=
  let s := enqueueSpan span origin s
  offer (spanEvent .retireQueued src span none (some s.retire.length)) s

/-- An automatic retirement request from the Health Table (R83, R90, R91). -/
def autoRequest (span : Nat) (src : Source) (s : State) : State :=
  if s.mode = .online then
    match admission s span with
    | .taken => takeSpan span .auto src s
    | .room => offer (spanEvent .retireDeferred src span none (some 8)) s
    | .range | .duplicate => s
  else s

/-! ### The Health Table -/

/-- The entry of a physical span (R79). -/
def findHealth (h : Health) (span : Nat) : Option (Fin 64) :=
  lowestIndex (fun e => e.any (fun x => x.span == span)) h

/-- The place of a span's entry, or `none`. -/
def healthOf (h : Health) (span : Nat) : Option (Fin 64 × HealthEntry) :=
  (findHealth h span).bind (fun i => h[i].map (fun e => (i, e)))

/-- The fixed count is at its threshold (section 6.3). -/
def fixedAt (p : Params) (e : HealthEntry) : Bool := decide (p.fixedThreshold ≤ e.fixed)

/-- The failed count is at its threshold (section 6.3). -/
def failedAt (p : Params) (e : HealthEntry) : Bool := decide (p.failedThreshold ≤ e.failed)

/-- An entry is at threshold (section 6.3). -/
def atThreshold (p : Params) (e : HealthEntry) : Bool := fixedAt p e || failedAt p e

/-- The counts at threshold as an event's value: 1 fixed, 2 failed, 3 both (R84). -/
def thresholdCode (p : Params) (e : HealthEntry) : Nat := (fixedAt p e).toNat + 2 * (failedAt p e).toNat

/-- A new entry for a physical span (R80). -/
def newHealthEntry (s : State) (span : Nat) : HealthEntry :=
  { span := span, spare := s.geom.inPool span, fixed := 0, failed := 0, firstSeen := s.sweep.pass,
    lastSeen := s.sweep.pass, reported := false }

/-- The first of two entries goes before the second as a victim: the lower fixed count, and among equals
the one last seen longer ago (R81). -/
def goesFirst (pass : BitVec 16) (e f : HealthEntry) : Bool :=
  decide (e.fixed < f.fixed)
    || (e.fixed == f.fixed && decide ((pass - f.lastSeen).toNat < (pass - e.lastSeen).toNat))

/-- The better victim of the best so far and place `i` (R81). -/
def betterVictim (pass : BitVec 16) (h : Health) (best : Option (Fin 64 × HealthEntry)) (i : Fin 64) :
    Option (Fin 64 × HealthEntry) :=
  match h[i] with
  | none => best
  | some e =>
    if e.failed = 0 then
      match best with
      | none => some (i, e)
      | some (j, f) => if goesFirst pass e f then some (i, e) else some (j, f)
    else best

/-- The victim of a replacement: failed count 0, then as `goesFirst`, then the lowest index (R81). -/
def victim (pass : BitVec 16) (h : Health) : Option (Fin 64) :=
  ((List.finRange 64).foldl (betterVictim pass h) none).map Prod.fst

/-- Where an increment for a span lands, with the entry before the count: its entry, a new entry at the
lowest empty place, or a new entry in a victim's place (R79, R80, R81). -/
def incrementPlace (s : State) (span : Nat) : Option (Fin 64 × HealthEntry) :=
  match healthOf s.health span with
  | some x => some x
  | none =>
    match lowestIndex Option.isNone s.health with
    | some i => some (i, newHealthEntry s span)
    | none => (victim s.sweep.pass s.health).map (fun i => (i, newHealthEntry s span))

/-- An entry after one increment, its counts saturating (R79). -/
def countIn (pass : BitVec 16) (failed : Bool) (e : HealthEntry) : HealthEntry :=
  { e with
    fixed := if failed then e.fixed else min 255 (e.fixed + 1)
    failed := if failed then min 15 (e.failed + 1) else e.failed
    lastSeen := pass }

/-- An entry reports once: its event is offered and its reported flag set (R84, R85). -/
def reportOnce (i : Fin 64) (e : HealthEntry) (ev : Event) (s : State) : State :=
  if e.reported then s
  else (offer ev s).setHealth (s.health.set i (some { e with reported := true }))

/-- The threshold check after an increment (Table 6-3, R83, R84, R85). -/
def thresholdCheck (i : Fin 64) (e : HealthEntry) (src : Source) (s : State) : State :=
  if atThreshold s.params e then
    if e.spare then
      reportOnce i e (spanEvent .spareDegraded src e.span (some (e.span - s.geom.spareBase))
        (some (thresholdCode s.params e))) s
    else if s.params.autoRetire then autoRequest e.span src s
    else reportOnce i e (spanEvent .threshold src e.span none (some (thresholdCode s.params e))) s
  else s

/-- An increment dropped: HEALTH_TABLE_FULL once a pass (R82). -/
def dropIncrement (span : Nat) (failed : Bool) (src : Source) (s : State) : State :=
  if s.sweep.tableFull then s
  else
    (offer (spanEvent .healthTableFull src span none (some (if failed then 2 else 1))) s).setSweep
      { s.sweep with tableFull := true }

/-- The Health Table takes an increment (R79 to R85). -/
def healthIncrement (span : Nat) (failed : Bool) (src : Source) (s : State) : State :=
  match incrementPlace s span with
  | none => dropIncrement span failed src s
  | some (i, e) =>
    let e' := countIn s.sweep.pass failed e
    thresholdCheck i e' src (s.setHealth (s.health.set i (some e')))

/-- One entry at a pass end: halved, removed at 0, its reported flag cleared below both thresholds (R86). -/
def decayEntry (p : Params) (e : HealthEntry) : Option HealthEntry :=
  let e := { e with fixed := e.fixed / 2 }
  if e.fixed = 0 ∧ e.failed = 0 then none
  else some (if atThreshold p e then e else { e with reported := false })

/-- Decay of the whole table (R86). -/
def decay (p : Params) (h : Health) : Health := tableMap (fun e => e.bind (decayEntry p)) h

/-- The HOST entry of a span that has been retired is removed (R87). -/
def removeRetired (span : Nat) (h : Health) : Health :=
  tableMap (fun e => if e.any (fun x => x.span == span && !x.spare) then none else e) h

/-- Every place empty (R87). -/
def emptyHealth : Health := Vector.replicate 64 none

end Sys2Proof.Machine
end

