-- ==== Sys2Proof/Machine/SweepUnit.lean ====
section
/-! DEFINITION. The sweep unit (R113 to R125): the position, the line cycle, the pass end, and what the
sweep does when its requests complete or the bridge is fenced. -/

namespace Sys2Proof.Machine

/-! ### The position -/

/-- The first host line at or after `line` that is outside the pool (R114). -/
def skipPool (g : Geometry) (line : Nat) : Nat :=
  if g.inPool (line / 64) then (g.spareBase + g.spareCount) * 64 else line

/-- The position set to 0: the first line outside the pool, or 0 when every span is in the pool (R114). -/
def firstPosition (g : Geometry) : Nat :=
  if skipPool g 0 < g.memSize * 64 then skipPool g 0 else 0

/-- A position moved up to `line` or past the pool; `none` is past the last line of memory (R114). -/
def positionFrom (g : Geometry) (line : Nat) : Option Nat :=
  if skipPool g line < g.memSize * 64 then some (skipPool g line) else none

/-! ### Statistics -/

/-- A pass statistic risen by 1, with the count of rises past its range (Table 8-1). -/
def riseStat (v : BitVec 32) (k : Nat) : BitVec 32 × Nat :=
  if v = BitVec.allOnes 32 then (Config.passStatPastMax k, k + 1) else (v + 1, k)

/-- The lines read statistic rises (R120). -/
def countRead (w : Sweep) : Sweep :=
  let r := riseStat w.stats.linesRead w.freeIndex
  { w with stats := { w.stats with linesRead := r.1 }, freeIndex := r.2 }

/-- The fixed statistic rises (R120). -/
def countFixed (w : Sweep) : Sweep :=
  let r := riseStat w.stats.fixed w.freeIndex
  { w with stats := { w.stats with fixed := r.1 }, freeIndex := r.2 }

/-- The failed statistic rises (R119). -/
def countFailed (w : Sweep) : Sweep :=
  let r := riseStat w.stats.failed w.freeIndex
  { w with stats := { w.stats with failed := r.1 }, freeIndex := r.2 }

/-- The skipped statistic rises (R116). -/
def countSkipped (w : Sweep) : Sweep :=
  let r := riseStat w.stats.skipped w.freeIndex
  { w with stats := { w.stats with skipped := r.1 }, freeIndex := r.2 }

/-- The poisoned-found statistic rises (R117). -/
def countPoisoned (w : Sweep) : Sweep :=
  let r := riseStat w.stats.poisonedFound w.freeIndex
  { w with stats := { w.stats with poisonedFound := r.1 }, freeIndex := r.2 }

/-! ### Pass end -/

/-- Half the sweep interval, rounded down and at least 1 µs (R121). -/
def halfInterval (n : Nat) : Nat := max 1 (n / 2)

/-- The SWEEP_PASS_DONE event, its counts capped (R121, R150). -/
def passDoneEvent (w : Sweep) : Event :=
  { kind := .sweepPassDone, source := .sweep, span := some (min 4194303 w.stats.skipped.toNat), offset := none,
    slot := some (min 127 w.stats.failed.toNat), value := some (min 65534 w.stats.fixed.toNat) }

/-- The new pass runs at half the sweep interval (R121). -/
def accelerates (p : Params) (w : Sweep) : Bool :=
  decide (0 < p.accelThreshold) && decide (p.accelThreshold ≤ w.stats.fixed.toNat)

/-- The sweep's fields for the new pass (R121). -/
def newPass (p : Params) (g : Geometry) (w : Sweep) : Sweep :=
  { w with
    pass := w.pass + 1
    accelerated := accelerates p w
    interval := if accelerates p w then halfInterval p.sweepInterval else p.sweepInterval
    stats := zeroPassStats
    tableFull := false
    position := firstPosition g }

/-- A pass end (R121). -/
def passEnd (s : State) : State :=
  let s := offer (passDoneEvent s.sweep) s
  let s := s.setHealth (decay s.params s.health)
  s.setSweep (newPass s.params s.geom s.sweep)

/-- The position advances, which may make a pass end (R114). -/
def advance (s : State) : State :=
  match positionFrom s.geom (s.sweep.position + 1) with
  | some p => s.setSweep { s.sweep with position := p }
  | none => passEnd s

/-- The interval timer is started afresh with the pass interval (R115). -/
def startTimer (s : State) : State := s.setSweep { s.sweep with timer := some s.sweep.interval }

/-- The sweep becomes WAITING and its timer starts (R115). -/
def sweepWait (s : State) : State := startTimer (s.setSweep { s.sweep with state := .waiting })

/-- The sweep becomes STOPPED; its timer does not run (R115). -/
def sweepHalt (s : State) : State :=
  s.setSweep { s.sweep with state := .stopped, timer := none, stopPending := false }

/-! ### The line cycle -/

/-- The sweep has a line in progress. -/
def lineInProgress (w : Sweep) : Bool :=
  w.state == .reading || w.state == .retrying || w.state == .writingBack

/-- The line data, the physical line, the retry fields and the request cleared (R120). -/
def clearLine (w : Sweep) : Sweep :=
  { w with line := none, data := none, retry := none, request := .absent }

/-- A line ends (R120). -/
def lineEnd (fixed : Bool) (s : State) : State :=
  let s := s.setSweep (countRead s.sweep)
  let s := if fixed then s.setSweep (countFixed s.sweep) else s
  let s := removeHolder .sweep s
  let s := s.setSweep (clearLine s.sweep)
  let s := if s.sweep.positionHeld then s.setSweep { s.sweep with positionHeld := false } else advance s
  if s.sweep.stopPending ∨ s.mode = .fenced then sweepHalt s else sweepWait s

/-- A line ends by abandonment (R120). -/
def abandonLine (s : State) : State :=
  let s := removeHolder .sweep s
  sweepHalt (s.setSweep (clearLine s.sweep))

/-- The sweep makes a downstream request ready (R74). -/
def presentSweep (body : DownBody) (origin : Originator) (s : State) : State :=
  match s.sweep.line with
  | none => s
  | some p => s.setSweep { s.sweep with request := .presented ⟨⟨p, body⟩, origin, false⟩ }

/-- The swept line is quiet (R117). -/
def sweepQuiet (s : State) (p : PhysLine) : Bool := !hostWriteAt s p && !slotHalfWaits s p

/-- The sweep waits in READING and its line is quiet (R117). -/
def sweepReadDue (s : State) : Bool :=
  s.sweep.state == .reading && s.sweep.request == .absent && s.sweep.line.any (sweepQuiet s)

/-- The sweep presents its READ once the line is quiet (R117). -/
def sweepReadIfDue (s : State) : State := if sweepReadDue s then presentSweep .read .sweepRead s else s

/-- Where the sweep reads host line `line`, or `none` when the span is under copy (R30, R116). -/
def sweepLine (s : State) (line : Nat) : Option PhysLine :=
  let p := physOfLine line
  match bindingOf s.remap p.span with
  | none => some p
  | some b => if b.stage = .active then some ⟨s.geom.slotSpan b.slot, p.off⟩ else none

/-- A line to read is not skipped: it is unlocked and the Hold List has no request for its host line
(R116). -/
def sweepTakes (s : State) (line : Nat) (p : PhysLine) : Bool :=
  !s.locks.locked p && !s.hold.any (s.host.isFor line)

/-- A skip (R116). -/
def sweepSkip (s : State) : State :=
  sweepWait (advance (s.setSweep (countSkipped s.sweep)))

/-- The line at the position is taken under SWEEP, or skipped (R116). -/
def sweepVisit (s : State) : State :=
  match sweepLine s s.sweep.position with
  | none => sweepSkip s
  | some p =>
    if sweepTakes s s.sweep.position p then
      let s := s.setSweep { s.sweep with state := .reading, line := some p, timer := none }
      sweepReadIfDue (addHolder .sweep p s)
    else sweepSkip s

/-- The interval timer expires (R114, R116). -/
def sweepExpire (s : State) : State :=
  match positionFrom s.geom s.sweep.position with
  | some p => sweepVisit (s.setSweep { s.sweep with position := p })
  | none => sweepWait (passEnd s)

/-! ### Completions -/

/-- A read returned corrected data: it is counted, and written back (R117). -/
def sweepFixed (p : PhysLine) (data : LineData) (s : State) : State :=
  let s := healthIncrement p.span false .sweep s
  let s := if s.params.logCorrected then offer (lineEvent .corrected .sweep p none) s else s
  let s := s.setSweep { s.sweep with state := .writingBack, data := some data }
  presentSweep (.write data fullMask false) .sweepWrite s

/-- The line failed for good (R119). -/
def sweepFailed (p : PhysLine) (s : State) : State :=
  let used := (s.sweep.retry.map Retry.used).getD 0
  let s := healthIncrement p.span true .sweep s
  let s := s.setSweep (countFailed s.sweep)
  let s := offer (lineEvent .uncorrectable .sweep p (some used)) s
  if s.params.scrubPoison then
    presentSweep (.write zeroLine fullMask true) .sweepWrite (s.setSweep { s.sweep with state := .writingBack })
  else lineEnd false s

/-- The line was already poisoned (R117). -/
def sweepPoisoned (s : State) : State := lineEnd false (s.setSweep (countPoisoned s.sweep))

/-- A further retry is presented (R118). -/
def sweepRetry (r : Retry) (s : State) : State :=
  presentSweep .read .sweepRetry (s.setSweep { s.sweep with state := .retrying, retry := some r })

/-- The READ of the line completes (R117, R118). -/
def sweepReadDone (p : PhysLine) (res : ReadResult) (data : LineData) (s : State) : State :=
  match res with
  | .clean => lineEnd false s
  | .fixed => sweepFixed p data s
  | .poisoned => sweepPoisoned s
  | .failed =>
    if s.params.retryLimit = 0 then sweepFailed p s else sweepRetry ⟨0, s.params.retryLimit⟩ s

/-- The TRANSIENT event of a recovered ladder (R118). -/
def sweepTransient (p : PhysLine) (s : State) : State :=
  offer (lineEvent .transient .sweep p (some ((s.sweep.retry.map Retry.used).getD 0))) s

/-- A retry completes (R118). -/
def sweepRetryDone (p : PhysLine) (res : ReadResult) (data : LineData) (s : State) : State :=
  match res with
  | .clean => lineEnd false (sweepTransient p s)
  | .fixed => sweepFixed p data (sweepTransient p s)
  | .poisoned => sweepPoisoned s
  | .failed =>
    match s.sweep.retry with
    | some r => if r.used < r.limit then sweepRetry r s else sweepFailed p s
    | none => sweepFailed p s

/-- A writeback completes DONE (R119, R120). -/
def sweepWriteDone (p : PhysLine) (body : DownBody) (s : State) : State :=
  match body with
  | .write _ _ true => lineEnd false (offer (lineEvent .poisonWritten .sweep p none) s)
  | .write _ _ false | .read => lineEnd true s

/-- A read or retry of the sweep completes with a condition other than ERROR. -/
def sweepReadCompletes (i : Issue) (res : ReadResult) (data : LineData) (s : State) : State :=
  let s := s.setSweep { s.sweep with request := .absent }
  if i.origin = .sweepRetry then sweepRetryDone i.req.line res data s
  else sweepReadDone i.req.line res data s

/-- A writeback of the sweep completes DONE. -/
def sweepWriteCompletes (i : Issue) (s : State) : State :=
  sweepWriteDone i.req.line i.req.body (s.setSweep { s.sweep with request := .absent })

/-! ### Commands and the fence -/

/-- Entry to FENCED acts on the sweep (R7, R125). -/
def sweepFence (s : State) : State :=
  if lineInProgress s.sweep then s.setSweep { s.sweep with positionHeld := true }
  else if s.sweep.state = .waiting then sweepHalt s
  else s

/-- Sweep enable set off (R123, Table 8-2). -/
def sweepStopNow (s : State) : State :=
  let s := s.setParams { s.params with sweepEnable := false }
  if lineInProgress s.sweep then s.setSweep { s.sweep with stopPending := true }
  else if s.sweep.state = .waiting then sweepHalt s
  else s

/-- Sweep enable set on; in FENCED the value is recorded and nothing else changes (R123, Table 8-2). -/
def sweepStartNow (s : State) : State :=
  let s := s.setParams { s.params with sweepEnable := true }
  if s.mode = .online then
    if lineInProgress s.sweep then s.setSweep { s.sweep with stopPending := false }
    else if s.sweep.state = .stopped then sweepWait s
    else s
  else s

/-- The position set to the first line, and held there when a line is in progress (R124). -/
def sweepReposition (s : State) : State :=
  s.setSweep { s.sweep with
    position := firstPosition s.geom
    positionHeld := s.sweep.positionHeld || lineInProgress s.sweep }

/-- The parameter sweep interval takes effect on the pass interval at once (R122). -/
def sweepIntervalSet (n : Nat) (s : State) : State :=
  let s := s.setParams { s.params with sweepInterval := n }
  s.setSweep { s.sweep with interval := if s.sweep.accelerated then halfInterval n else n }

end Sys2Proof.Machine
end

