-- ==== Sys2Proof/Machine/CopyEngine.lean ====
section
/-! DEFINITION. The copy engine (R94 to R112) with the Remap Table's entry transitions it makes (R16 to
R25), and the record requests it sends (R131). -/

namespace Sys2Proof.Machine

/-! ### Record requests -/

/-- A record request that arrives now is reported skipped at once (R131). -/
def recordSkipped (s : State) : Bool := s.journal.store != .online || s.journal.task == .raw

/-- A request joins the tail of the request list (R131). -/
def enqueueRequest (r : JRequest) (s : State) : State :=
  s.setJournal { s.journal with requests := s.journal.requests ++ [r] }

/-- A record of the copy under way (Table 9-2). -/
def jobRecord (kind : RecordKind) (j : CopyJob) (poisoned : Nat) : JRecord :=
  { kind := kind, span := j.span, slot := j.slot, poisoned := poisoned }

/-! ### The line cycle -/

/-- The entry of the copy under way changed. -/
def modifyJobEntry (f : Binding → Binding) (s : State) : State :=
  match s.copy.job with
  | some j => s.setRemap (modifyEntry j.entry f s.remap)
  | none => s

/-- The poisoned-line count of the entry of the copy under way (R25). -/
def jobPoisoned (s : State) : Nat :=
  ((s.copy.job.bind (fun j => s.remap[j.entry])).map Binding.poisoned).getD 0

/-- The source line at the cursor (R98). -/
def sourceLine (c : CopyCtx) : Option PhysLine := c.job.map (fun j => ⟨j.span, c.cursor⟩)

/-- The slot line at the cursor (R99). -/
def slotLine (g : Geometry) (c : CopyCtx) : Option PhysLine :=
  c.job.map (fun j => ⟨g.slotSpan j.slot, c.cursor⟩)

/-- The copy engine makes a downstream request ready (R74). -/
def presentCopy (line : Option PhysLine) (body : DownBody) (origin : Originator) (s : State) : State :=
  match line with
  | none => s
  | some p => s.setCopy { s.copy with request := .presented ⟨⟨p, body⟩, origin, false⟩ }

/-- The line at the cursor is taken: COPY is added to the source line (R98). -/
def takeLine (s : State) : State :=
  let s := s.setCopy { s.copy with state := .lineRead, request := .absent }
  match sourceLine s.copy with
  | some p => addHolder .copy p s
  | none => s

/-- A source line is quiet (R98). -/
def copyQuiet (s : State) (p : PhysLine) : Bool := !hostWriteAt s p && s.locks.sweep != some p

/-- The copy engine waits in LINE READ and its line is quiet (R98). -/
def copyReadDue (s : State) : Bool :=
  s.copy.state == .lineRead && s.copy.request == .absent && (sourceLine s.copy).any (copyQuiet s)

/-- The copy engine presents its READ once the line is quiet (R98). -/
def copyReadIfDue (s : State) : State :=
  if copyReadDue s then presentCopy (sourceLine s.copy) .read .copyRead s else s

/-! ### The abort -/

/-- The CANCEL record is reported, written or skipped (R109). -/
def cancelReported (s : State) : State := s.setCopy { s.copy with cancelDone := true }

/-- A CANCEL record request is sent (R109, R131). -/
def sendCancel (s : State) : State :=
  match s.copy.job with
  | none => s
  | some j =>
    if recordSkipped s then cancelReported s
    else enqueueRequest (.record (jobRecord .cancelRec j 0)) s

/-- The step in flight of an abort has ended: COPY leaves its line and CANCEL is requested (R109). That the line
data and the retry fields go here, and not with the rest of the context when the abort ends, is the model's
choice (DESIGN CHOICE, notes/assumptions/26.md). -/
def stepEnded (s : State) : State :=
  let s := s.setCopy { s.copy with
    stepInFlight := false, request := .absent, data := none, writeKind := none, retry := none }
  sendCancel (removeHolder .copy s)

/-- An abort begins (R19, R20, R108): in BEGINNING the BEGIN record is the step in flight, otherwise the
request presented or at memory, if there is one. The slot write kind is absent outside LINE WRITE (Table 7-1);
a slot write that is the step in flight carries its own poison mark. -/
def beginAbort (cause : AbortCause) (s : State) : State :=
  let s := modifyJobEntry (fun b => { b with stage := .aborting }) s
  let inFlight := s.copy.state == .beginning || s.copy.request != .absent
  let s := s.setCopy { s.copy with
    state := .aborting, writeKind := none, cause := some cause, stepInFlight := inFlight }
  if inFlight then s else stepEnded s

/-- The copy is in COPYING: in BEGINNING or in a line's cycle (R6). -/
def inCopying (c : CopyCtx) : Bool :=
  c.state == .beginning || c.state == .lineRead || c.state == .lineRetry || c.state == .lineWrite

/-- Entry to FENCED acts on the copy engine (R6, R110). -/
def copyFence (s : State) : State := if inCopying s.copy then beginAbort .fence s else s

/-- The entry of a copy becomes FREE (R14, R21). -/
def freeJobEntry (j : CopyJob) (r : Remap) : Remap :=
  if underCopy r[j.entry] then r.set j.entry none else r

/-- An ungranted slot half resolved to a line of a physical span (R21). -/
def isSlotHalfOf (span : Nat) (i : Issue) : Bool :=
  i.req.isWrite && !i.reissue && i.req.line.span == span

/-- A withdrawn slot half counts DONE for its dual write; an orphan has no write to answer (R21, R49). -/
def withdrawHalf (i : Issue) (s : State) : State :=
  match i.origin with
  | .hostWrite tag half era => if era = s.host.era then finishHalf tag half .done s else s
  | _ => s

/-- Every ungranted slot half of a slot is withdrawn (R21). Where this settles several dual writes at once,
their responses go in the order of the follow-on items (DESIGN CHOICE, notes/assumptions/22.md). -/
def withdrawHalves (span : Nat) (s : State) : State :=
  let out := s.host.followOns.filter (isSlotHalfOf span)
  let s := s.setHost { s.host with followOns := s.host.followOns.filter (fun i => !isSlotHalfOf span i) }
  out.foldl (fun t i => withdrawHalf i t) s

/-- The value of a RETIRE_CANCELLED event (R109). -/
def causeValue : Option AbortCause → Nat
  | some .fence => 2
  | _ => 1

/-- The conditions of R21 hold together. -/
def abortEndDue (s : State) : Bool :=
  s.copy.state == .aborting && !s.copy.stepInFlight && s.copy.cancelDone
    && s.copy.job.any (fun j => !spanWriteInFlight s (s.geom.slotSpan j.slot))

/-- The abort ends: halves withdrawn, entry FREE, RETIRE_CANCELLED, IDLE, exhaustion flag clear (R21,
R109). -/
def finishAbort (j : CopyJob) (s : State) : State :=
  let s := withdrawHalves (s.geom.slotSpan j.slot) s
  let s := s.setRemap (freeJobEntry j s.remap)
  let s := offer (spanEvent .retireCancelled .copy j.span (some j.slot) (some (causeValue s.copy.cause))) s
  s.setCopy (idleCopy false)

/-- The abort ends if its conditions hold (R21). -/
def abortEndIfDue (s : State) : State :=
  if abortEndDue s then
    match s.copy.job with
    | some j => finishAbort j s
    | none => s
  else s

/-! ### Commit -/

/-- The ASSIGN record is reported: the entry becomes ACTIVE (R18, R105). -/
def assignReported (written : Bool) (s : State) : State :=
  match s.copy.job with
  | none => s
  | some j =>
    let poisoned := jobPoisoned s
    let s := s.setRemap (modifyEntry j.entry
      (fun b => { b with stage := .active, journaled := written }) s.remap)
    let s := s.setHealth (removeRetired j.span s.health)
    let s := offer (spanEvent .retireDone .copy j.span (some j.slot) (some poisoned)) s
    s.setCopy (idleCopy s.copy.exhausted)

/-- An ASSIGN record request is sent (R102, R131). -/
def sendAssign (s : State) : State :=
  match s.copy.job with
  | none => s
  | some j =>
    if recordSkipped s then assignReported false s
    else enqueueRequest (.record (jobRecord .assignRec j (jobPoisoned s))) s

/-! ### Start -/

/-- The BEGIN record is reported, written or skipped: line 0 is taken, or in ABORTING the step in flight
ends (R97, R107, R108). -/
def beginReported (s : State) : State :=
  match s.copy.state with
  | .beginning => takeLine s
  | .aborting => stepEnded s
  | _ => s

/-- A BEGIN record request is sent (R95, R131). -/
def sendBegin (j : CopyJob) (s : State) : State :=
  if recordSkipped s then beginReported s
  else enqueueRequest (.record (jobRecord .beginRec j 0)) s

/-- A copy starts: the queue's head takes an entry and a slot (R16, R95). -/
def startCopy (q : Queued) (rest : List Queued) (e : Fin 128) (k : Nat) (s : State) : State :=
  let j : CopyJob := { entry := e, span := q.span, slot := k }
  let s := s.setRetire rest
  let s := s.setRemap (s.remap.set e (some
    { stage := .copying, span := q.span, slot := k, copied := 0, origin := q.origin, journaled := false,
      poisoned := 0 }))
  let s := s.setCopy { idleCopy false with state := .beginning, job := some j }
  let s := offer (spanEvent .retireStarted .copy q.span (some k) (some e.val)) s
  sendBegin j s

/-- No slot is free for the waiting head: SPARE_EXHAUSTED once for each period of exhaustion (R96). -/
def spareExhausted (q : Queued) (s : State) : State :=
  if s.copy.exhausted then s
  else
    let s := offer (spanEvent .spareExhausted .copy q.span none (some s.geom.spareCount)) s
    s.setCopy { s.copy with exhausted := true }

/-- The copy engine may consider a start: IDLE and ONLINE (R95). -/
def mayStart (s : State) : Bool := s.copy.state == .idle && s.mode == .online

/-- The copy engine considers its next start (R95, R96). -/
def considerStart (s : State) : State :=
  if mayStart s then
    match s.retire with
    | [] => s
    | q :: rest =>
      match freeSlot s.geom s.remap, freeEntry s.remap with
      | some k, some e => startCopy q rest e k s
      | _, _ => spareExhausted q s
  else s

/-! ### Completions -/

/-- The source read returned data: it is presented to the slot (R99). -/
def copyCarry (p : PhysLine) (fixed : Bool) (data : LineData) (s : State) : State :=
  let s := s.setCopy { s.copy with state := .lineWrite, data := some data, writeKind := some .plain }
  let s := presentCopy (slotLine s.geom s.copy) (.write data fullMask false) .copyWrite s
  if fixed then
    let s := healthIncrement p.span false .copy s
    if s.params.logCorrected then offer (lineEvent .corrected .copy p none) s else s
  else s

/-- The line is carried into the slot as poison (R101). -/
def copyPoison (kind : WriteKind) (s : State) : State :=
  let s := s.setCopy { s.copy with state := .lineWrite, writeKind := some kind }
  presentCopy (slotLine s.geom s.copy) (.write zeroLine fullMask true) .copyWrite s

/-- The source read failed for good (R101). -/
def copyFailed (p : PhysLine) (s : State) : State :=
  healthIncrement p.span true .copy (copyPoison .poisonFailed s)

/-- A retry READ of the source line is presented (R100). -/
def copyRetry (r : Retry) (s : State) : State :=
  let s := s.setCopy { s.copy with state := .lineRetry, retry := some r }
  presentCopy (sourceLine s.copy) .read .copyRetry s

/-- The first READ of the cursor line completes (R99, R100, R101). -/
def copyReadDone (p : PhysLine) (res : ReadResult) (data : LineData) (s : State) : State :=
  match res with
  | .clean => copyCarry p false data s
  | .fixed => copyCarry p true data s
  | .poisoned => copyPoison .poisonCarried s
  | .failed =>
    if s.params.retryLimit = 0 then copyFailed p s else copyRetry ⟨0, s.params.retryLimit⟩ s

/-- The TRANSIENT event of a recovered copy ladder (R100). -/
def copyTransient (p : PhysLine) (s : State) : State :=
  offer (lineEvent .transient .copy p (some ((s.copy.retry.map Retry.used).getD 0))) s

/-- The ladder's last retry has been used (R100). -/
def lastRetry (r : Option Retry) : Bool := r.any (fun r => decide (r.limit ≤ r.used))

/-- A retry READ of the cursor line completes (R100). -/
def copyRetryDone (p : PhysLine) (res : ReadResult) (data : LineData) (s : State) : State :=
  match res with
  | .clean => copyCarry p false data (copyTransient p s)
  | .fixed => copyCarry p true data (copyTransient p s)
  | .poisoned => copyPoison .poisonCarried s
  | .failed =>
    match s.copy.retry with
    | some r => if r.used < r.limit then copyRetry r s else copyFailed p s
    | none => copyFailed p s

/-- What a read or retry that was the step in flight of an abort counts (R108). -/
def abortReadCounts (i : Issue) (res : ReadResult) (s : State) : State :=
  match res with
  | .fixed => healthIncrement i.req.line.span false .copy s
  | .failed =>
    if i.origin = .copyRetry ∧ lastRetry s.copy.retry then healthIncrement i.req.line.span true .copy s else s
  | .clean | .poisoned => s

/-- A read or retry of the copy engine completes with a condition other than ERROR. -/
def copyReadCompletes (i : Issue) (res : ReadResult) (data : LineData) (s : State) : State :=
  let s := s.setCopy { s.copy with request := .absent }
  if s.copy.state = .aborting then stepEnded (abortReadCounts i res s)
  else if i.origin = .copyRetry then copyRetryDone i.req.line res data s
  else copyReadDone i.req.line res data s

/-- The slot write carried the poison mark (R25). -/
def markedWrite (k : Option WriteKind) : Bool := k == some .poisonFailed || k == some .poisonCarried

/-- The entry after a slot write at cursor `c` is DONE (R17, R25). -/
def lineCopied (c : Nat) (marked : Bool) (b : Binding) : Binding :=
  { b with copied := c + 1, poisoned := if marked then b.poisoned + 1 else b.poisoned }

/-- The LINE_CARRIED_POISON event (R102). -/
def carriedEvent (j : CopyJob) (c : Nat) (k : Option WriteKind) : Event :=
  { kind := .lineCarriedPoison, source := .copy, span := some j.span, offset := some c, slot := some j.slot,
    value := some (if k = some .poisonCarried then 2 else 1) }

/-- The slot write of the cursor line is DONE in COPYING (R102, R17). -/
def slotWriteDone (j : CopyJob) (s : State) : State :=
  let c := s.copy.cursor
  let kind := s.copy.writeKind
  let s := modifyJobEntry (lineCopied c (markedWrite kind)) s
  let s := if markedWrite kind then offer (carriedEvent j c kind) s else s
  let s := if c < 63 then s else modifyJobEntry (fun b => { b with stage := .committing }) s
  let s := removeHolder .copy s
  let s := s.setCopy { s.copy with data := none, writeKind := none, retry := none }
  if c < 63 then takeLine (s.setCopy { s.copy with cursor := c + 1 })
  else sendAssign (s.setCopy { s.copy with state := .committing })

/-- A downstream request is a WRITE with the poison mark (Table 5-1). -/
def DownReq.marked (r : DownReq) : Bool :=
  match r.body with
  | .write _ _ poison => poison
  | .read => false

/-- A slot write of the copy engine completes DONE: in LINE WRITE by its kind (R102), in ABORTING as the step
in flight, counted by the mark that it carried (R108). -/
def copyWriteCompletes (i : Issue) (s : State) : State :=
  let s := s.setCopy { s.copy with request := .absent }
  match s.copy.job with
  | none => s
  | some j =>
    if s.copy.state = .aborting then
      stepEnded (modifyJobEntry (lineCopied s.copy.cursor i.req.marked) s)
    else slotWriteDone j s

/-- The copy engine is told that its step failed (R103, R109). -/
def copyStepFailed (s : State) : State := if s.copy.state = .aborting then stepEnded s else s

end Sys2Proof.Machine
end

