-- ==== Sys2Proof/Machine/JournalController.lean ====
section
/-! DEFINITION. The journal controller (R126 to R143): the request list, append, compaction, replay,
cleaning, store faults, detach and attach. Flash contents reach it as the operands of the completions. -/

namespace Sys2Proof.Machine

/-! ### Views of Table 9-3 -/

/-- The controller states of Table 9-3. -/
inductive JournalState where
  | idle | hold | replaying | appending | compacting | attaching | raw
deriving DecidableEq, Repr

/-- The controller state (Table 9-3). REPLAYING covers every piece of start-up work (R130). A compaction
within an attach shows ATTACHING, by R141 and the compaction step's row of Table 9-3, where R133 says that a
compaction becomes COMPACTING (DESIGN CHOICE, notes/assumptions/25.md). -/
def journalState : Task → JournalState
  | .idle => .idle
  | .hold => .hold
  | .replayHeaders _ | .replayRecords _ _ | .initErase | .initHeader | .cleanHeaders _ | .cleanErase _ _
  | .cleanHeader => .replaying
  | .append => .appending
  | .compact .append _ _ | .compact .geometry _ _ => .compacting
  | .compact .attach _ _ | .attachReady | .attachHeaders _ | .reconcile _ _ => .attaching
  | .raw => .raw

/-- The compaction step, absent outside a compaction (Table 9-3). -/
def compactionStep : Task → Option CompactStep
  | .compact _ _ step => some step
  | _ => none

/-- A raw session is open (R143). -/
def rawOpen (s : State) : Bool := s.journal.task == .raw

/-- Chip select is low between steps: a raw session is open (R143), or the journal controller reads, or
repeats read status, in an operation of its own (R126, R127). -/
def chipSelectLow (s : State) : Bool := s.journal.task != .idle && s.journal.task != .hold

/-! ### Small updates -/

/-- The controller's task set. -/
def setTask (t : Task) (s : State) : State := s.setJournal { s.journal with task := t }

/-- The request at the head of the list leaves it (R131). -/
def dropRequest (s : State) : State := s.setJournal { s.journal with requests := s.journal.requests.tail }

/-- The store state set. -/
def setStore (v : Store) (s : State) : State := s.setJournal { s.journal with store := v }

/-- The store becomes OFFLINE and every ACTIVE entry's journaled flag becomes no (R24, R129). -/
def storeOffline (s : State) : State := (setStore .offline s).setRemap (journalFlags false s.remap)

/-- A journal event (Table 9-6). -/
def journalEvent (kind : EventKind) (half : Option HalfId) (value : Nat) : Event :=
  { kind := kind, source := .journal, span := none, offset := half.map halfNumber, slot := none,
    value := some value }

/-- A REPLAY_CONFLICT event (Table 9-4). Its span and slot are the record's bytes as read, also past the
ranges of Table 10-1 (DESIGN CHOICE, notes/assumptions/23.md). -/
def conflictEvent (span slot cause : Nat) : Event := spanEvent .replayConflict .journal span (some slot) (some cause)

/-- A record's report goes to the copy engine (R131). -/
def recordReported (kind : RecordKind) (written : Bool) (s : State) : State :=
  match kind with
  | .beginRec => beginReported s
  | .assignRec => assignReported written s
  | .cancelRec => cancelReported s

/-- The record request at the head is reported and leaves the list (R131, R132). -/
def reportRecord (r : JRecord) (written : Bool) (s : State) : State :=
  recordReported r.kind written (dropRequest s)

/-- The management request at the head is served: it leaves the list and its command is answered OK. -/
def serveCommand (s : State) : State := answer .ok [] (dropRequest s)

/-! ### The end of start-up -/

/-- Mode control is told that start-up is complete (R3): ONLINE, and a WAITING sweep starts its timer. -/
def startupComplete (s : State) : State :=
  if s.mode = .startup then
    let s := s.setMode .online
    if s.sweep.state = .waiting then startTimer s else s
  else s

/-- A RESUMED request of replay (R90, R137). The slot in its event is the record's byte as read, also past
127 (DESIGN CHOICE, notes/assumptions/23.md). -/
def offerResumed (p : OpenPair) (s : State) : State :=
  match admission s p.span with
  | .taken =>
    let s := enqueueSpan p.span .resumed s
    offer (spanEvent .copyResumed .journal p.span (some p.slot) (some s.retire.length)) s
  | .range => offer (conflictEvent p.span p.slot 6) s
  | .duplicate => offer (conflictEvent p.span p.slot 7) s
  | .room => offer (conflictEvent p.span p.slot 8) s

/-- Replay ends (R137). -/
def endReplay (openList : List OpenPair) (s : State) : State :=
  let s := openList.foldl (fun t p => offerResumed p t) (setTask .idle s)
  startupComplete (if s.journal.live.isSome && s.journal.store != .disabled then setStore .online s else s)

/-- Replay begins (R135): a DISABLED store ends it at once. -/
def beginReplay (s : State) : State :=
  if s.journal.store = .disabled then endReplay [] s else setTask (.replayHeaders none) s

/-- The cleaning ends and CLEAN_START is answered (R138). -/
def endCleaning (s : State) : State := answer .ok [] (startupComplete (setTask .idle s))

/-! ### Store faults -/

/-- What a store fault does beyond taking the store OFFLINE, by what the controller was doing (R139). -/
def faultEnds (t : Task) (s : State) : State :=
  match t with
  | .append | .compact .append _ _ =>
    match s.journal.requests with
    | .record r :: _ => reportRecord r false s
    | _ => s
  | .compact .geometry _ _ | .compact .attach _ _ | .attachReady | .attachHeaders _ | .reconcile _ _ =>
    serveCommand s
  | .initErase | .initHeader => startupComplete s
  | .cleanHeaders _ | .cleanErase _ _ | .cleanHeader => endCleaning s
  | .idle | .hold | .replayHeaders _ | .replayRecords _ _ | .raw => s

/-- A store fault (R139). -/
def storeFault (value : Nat) (half : Option HalfId) (mismatch : Bool) (s : State) : State :=
  let t := s.journal.task
  let s := storeOffline s
  let s := offer (journalEvent .storeFault half (if mismatch then value + 16 else value)) s
  faultEnds t (s.setJournal { s.journal with task := .idle, snapshot := none })

/-! ### Compaction -/

/-- A compaction begins: its snapshot is fixed and the target is erased (R133). -/
def beginCompact (cause : CompactCause) (target : HalfId) (s : State) : State :=
  s.setJournal { s.journal with
    task := .compact cause target .erasing, snapshot := some (snapshotOf s.remap) }

/-- The spare half (R128); B when no half is live. -/
def spareHalf (j : Journal) : HalfId := (j.live.map otherHalf).getD .b

/-- The header step, which faults when no higher epoch exists (R133, R134). -/
def headerStep (cause : CompactCause) (target : HalfId) (s : State) : State :=
  if s.journal.epoch = Config.maxEpoch then storeFault 4 (some target) false s
  else setTask (.compact cause target .header) s

/-- The snapshot record `i` is programmed next, or the header when none is left (R133). -/
def snapshotStep (cause : CompactCause) (target : HalfId) (i : Nat) (s : State) : State :=
  if i < (s.journal.snapshot.getD []).length then setTask (.compact cause target (.snapshot i)) s
  else headerStep cause target s

/-- The attach compares the table with the half and appends what is missing; with nothing missing the store
becomes ONLINE and the command is answered (R141). -/
def reconcile (written : List JRecord) (s : State) : State :=
  match reconcileNeed s.remap written with
  | some r => setTask (.reconcile written r) s
  | none =>
    let s := (setTask .idle (setStore .online s)).setRemap (journalFlags true s.remap)
    serveCommand s

/-- The compaction's new header is verified (R133, R141, R142). -/
def headerVerified (cause : CompactCause) (target : HalfId) (s : State) : State :=
  let recs := s.journal.snapshot.getD []
  let s := s.setJournal { s.journal with
    live := some target, epoch := s.journal.epoch + 1, next := recs.length + 1, snapshot := none }
  let s := offer (journalEvent .journalCompacted (some target) recs.length) s
  match cause with
  | .append => setTask .append s
  | .geometry => serveCommand (setTask .idle s)
  | .attach => reconcile recs s

/-! ### The request list -/

/-- The request at the head is served by an IDLE controller (R131, Table in R131). -/
def serveHead (s : State) : State :=
  match s.journal.requests with
  | [] => s
  | .record r :: _ =>
    if s.journal.store = .online then
      if s.journal.next < 256 then setTask .append s
      else beginCompact .append (spareHalf s.journal) s
    else reportRecord r false s
  | .geometry :: _ =>
    if s.journal.store = .online then beginCompact .geometry (spareHalf s.journal) s else serveCommand s
  | .attach :: _ => setTask .attachReady s
  | .detach :: _ => serveCommand (if s.journal.store = .online then storeOffline s else s)

/-- A request waits and the controller is IDLE (R131). -/
def serveDue (s : State) : Bool := s.journal.task == .idle && !s.journal.requests.isEmpty

/-- Requests are served while the controller stays IDLE, at most `n` of them (R131). -/
def serveWaiting : Nat → State → State
  | 0, s => s
  | n + 1, s => if serveDue s then serveWaiting n (serveHead s) else s

/-! ### Programs and erases -/

/-- The half, position and bytes of the page program under way (R127). -/
def programmed (s : State) : Option (Option HalfId × Nat × List Byte) :=
  match s.journal.task with
  | .append =>
    match s.journal.requests with
    | .record r :: _ => some (s.journal.live, s.journal.next, recordBytes s.journal.next r)
    | _ => none
  | .compact _ target (.snapshot i) =>
    ((s.journal.snapshot.getD [])[i]?).map (fun r => (some target, i + 1, recordBytes (i + 1) r))
  | .compact _ target .header =>
    some (some target, 0, headerBytes { epoch := s.journal.epoch + 1, geom := s.geom })
  | .reconcile _ r => some (s.journal.live, s.journal.next, recordBytes s.journal.next r)
  | .initHeader | .cleanHeader =>
    some (some .a, 0, headerBytes { epoch := 1, geom := defaultGeometry })
  | _ => none

/-- The half under erase (R127). -/
def erasing (t : Task) : Option HalfId :=
  match t with
  | .initErase => some .a
  | .cleanErase now _ => some now
  | .compact _ target .erasing => some target
  | _ => none

/-- The STORE_FAULT value of a program or erase, by what the controller is doing (Table 9-5). -/
def faultValue : Task → Nat
  | .append => 1
  | .compact _ _ .erasing => 2
  | .compact _ _ (.snapshot _) | .reconcile _ _ => 3
  | .compact _ _ .header => 4
  | .attachReady | .attachHeaders _ => 6
  | .idle | .hold | .replayHeaders _ | .replayRecords _ _ | .initErase | .initHeader | .cleanHeaders _
  | .cleanErase _ _ | .cleanHeader | .raw => 5

/-- A header with epoch 1 is verified in half A: A is live (R135, R138). -/
def liveA (s : State) : State :=
  s.setJournal { s.journal with live := some .a, epoch := 1, next := 1 }

/-- The next position rises by 1 (R132). -/
def positionUsed (s : State) : State := s.setJournal { s.journal with next := s.journal.next + 1 }

/-- A program is verified (R132, R133, R135, R138, R141). -/
def verified (s : State) : State :=
  match s.journal.task with
  | .append =>
    match s.journal.requests with
    | .record r :: _ => reportRecord r true (setTask .idle (positionUsed s))
    | _ => s
  | .compact cause target (.snapshot i) => snapshotStep cause target (i + 1) s
  | .compact cause target .header => headerVerified cause target s
  | .reconcile written r => reconcile (written ++ [r]) (positionUsed s)
  | .initHeader => endReplay [] (liveA s)
  | .cleanHeader => endCleaning (setStore .online (liveA s))
  | _ => s

/-- An erase is complete (R133, R135, R138). -/
def erased (s : State) : State :=
  match s.journal.task with
  | .initErase => setTask .initHeader s
  | .cleanErase _ (some h) => setTask (.cleanErase h none) s
  | .cleanErase _ none => setTask .cleanHeader s
  | .compact cause target .erasing => snapshotStep cause target 0 s
  | _ => s

/-! ### Reads -/

/-- The first check of R22 that an ASSIGN record fails, as a cause of Table 9-4; 0 when it is taken. -/
def assignCheck (s : State) (r : JRecord) : Nat :=
  if !s.geom.usable r.span then 1
  else if s.geom.spareCount ≤ r.slot then 2
  else if (bindingOf s.remap r.span).isSome then 3
  else if (bindingOfSlot s.remap r.slot).isSome then 4
  else 0

/-- An entry restored ACTIVE by replay (R22). The poisoned-line count is the record's byte as read, also past
64 (DESIGN CHOICE, notes/assumptions/23.md). -/
def restoredBinding (r : JRecord) : Binding :=
  { stage := .active, span := r.span, slot := r.slot, copied := 64, origin := .restored, journaled := true,
    poisoned := r.poisoned }

/-- Replay takes an ASSIGN record (R22, R136). -/
def replayAssign (r : JRecord) (s : State) : State :=
  if assignCheck s r = 0 then
    match freeEntry s.remap with
    | some e => s.setRemap (s.remap.set e (some (restoredBinding r)))
    | none => s
  else offer (conflictEvent r.span r.slot (assignCheck s r)) s

/-- The open list without a span's pair (R136). -/
def closePair (span : Nat) (l : List OpenPair) : List OpenPair := l.filter (fun p => p.span != span)

/-- The open list with a span's BEGIN, in its place when it is already there (R136). -/
def openPair (r : JRecord) (l : List OpenPair) : List OpenPair :=
  if l.any (fun p => p.span == r.span) then
    l.map (fun p => if p.span = r.span then { p with slot := r.slot } else p)
  else l ++ [⟨r.span, r.slot⟩]

/-- A BEGIN finds the open list full (R136). -/
def openListFull (r : JRecord) (l : List OpenPair) : Bool :=
  !l.any (fun p => p.span == r.span) && decide (8 ≤ l.length)

/-- The open list after a good record (R136). -/
def openAfter (r : JRecord) (l : List OpenPair) : List OpenPair :=
  match r.kind with
  | .beginRec => if openListFull r l then l else openPair r l
  | .assignRec | .cancelRec => closePair r.span l

/-- What a good record does to the tables and events of the part (R136). -/
def replayGood (r : JRecord) (l : List OpenPair) (s : State) : State :=
  match r.kind with
  | .assignRec => replayAssign r s
  | .beginRec => if openListFull r l then offer (conflictEvent r.span r.slot 5) s else s
  | .cancelRec => s

/-- The next position becomes `n` and replay ends (R136, R137). -/
def replayStops (n : Nat) (l : List OpenPair) (s : State) : State :=
  endReplay l (s.setJournal { s.journal with next := n })

/-- Replay goes on past position `pos`, or stops after position 255 (R136). -/
def replayGoesOn (pos : Nat) (l : List OpenPair) (s : State) : State :=
  if pos < 255 then setTask (.replayRecords (pos + 1) l) s else replayStops 256 l s

/-- Replay takes the position `pos` of the live half (R136). -/
def replayPosition (pos : Nat) (l : List OpenPair) (bytes : List Byte) (s : State) : State :=
  if isEmptyPosition bytes then replayStops pos l s
  else
    match goodRecord pos bytes with
    | none => replayGoesOn pos l (offer (journalEvent .recordTorn s.journal.live pos) s)
    | some r => replayGoesOn pos (openAfter r l) (replayGood r l s)

/-- A damaged header is reported (R135). -/
def reportDamaged (half : HalfId) (bytes : List Byte) (s : State) : State :=
  if damagedHeader bytes then offer (journalEvent .recordTorn (some half) 0) s else s

/-- Replay has read both headers (R135). -/
def replayChoose (a b : List Byte) (s : State) : State :=
  let s := reportDamaged .b b (reportDamaged .a a s)
  match chooseLive a b with
  | none => setTask .initErase s
  | some (half, h) =>
    let s := s.setGeom h.geom
    s.setJournal { s.journal with live := some half, epoch := h.epoch, task := .replayRecords 1 [] }

/-- The half chosen as live, with its epoch; absent and 0 when neither header is valid (Table 9-3). -/
def setChosen (a b : List Byte) (s : State) : State :=
  s.setJournal { s.journal with
    live := (chooseLive a b).map Prod.fst, epoch := ((chooseLive a b).map (fun x => x.2.epoch)).getD 0 }

/-- CLEAN_START has read both headers: the half that is not live is erased first, B when neither header is
valid (R138). -/
def cleanChoose (a b : List Byte) (s : State) : State :=
  let s := setChosen a b s
  setTask (.cleanErase (spareHalf s.journal) (some (otherHalf (spareHalf s.journal)))) s

/-- An attach has read both headers: the other half than the live one is the target (R141). -/
def attachChoose (a b : List Byte) (s : State) : State :=
  let s := setChosen a b s
  beginCompact .attach (spareHalf s.journal) s

/-- One 16-byte position read from the flash is taken by what the controller is reading (R135, R136, R138,
R141); bytes read beyond what it needs are not looked at. -/
def readPosition (bytes : List Byte) (s : State) : State :=
  match s.journal.task with
  | .replayHeaders none => setTask (.replayHeaders (some bytes)) s
  | .replayHeaders (some a) => replayChoose a bytes s
  | .replayRecords pos l => replayPosition pos l bytes s
  | .cleanHeaders none => setTask (.cleanHeaders (some bytes)) s
  | .cleanHeaders (some a) => cleanChoose a bytes s
  | .attachHeaders none => setTask (.attachHeaders (some bytes)) s
  | .attachHeaders (some a) => attachChoose a bytes s
  | _ => s

/-! ### What follows in the same step -/

/-- What the rules let follow in the step of a completion: waiting requests are served (R131), an abort
whose conditions hold ends (R21), the copy engine considers a start (R95), a record so requested is served,
and quiet lines have their READ presented (R98, R117). -/
def settle (s : State) : State :=
  let s := serveWaiting (s.journal.requests.length + 1) s
  let s := abortEndIfDue s
  let s := considerStart s
  let s := serveWaiting (s.journal.requests.length + 1) s
  sweepReadIfDue (copyReadIfDue s)

end Sys2Proof.Machine
end

