-- ==== Sys2Proof/Machine/HostPortOps.lean ====
section
/-! DEFINITION. The host port (chapter 3): the taking of requests (R33 to R39), the completion of host
reads and writes with the retry ladders (R43 to R49), and the host-path reset (R50, R65). -/

namespace Sys2Proof.Machine

/-! ### Statistics -/

/-- The host reads or host writes counter rises by 1, by the request's kind (R38, R39). -/
def countTaken (op : HostOp) (s : State) : State :=
  match op with
  | .read => s.setStats { s.stats with hostReads := s.stats.hostReads + 1 }
  | .write _ _ => s.setStats { s.stats with hostWrites := s.stats.hostWrites + 1 }

/-- The host refusals counter rises by 1 (R13). -/
def countRefusal (s : State) : State := s.setStats { s.stats with hostRefusals := s.stats.hostRefusals + 1 }

/-- The final failed reads counter rises by 1 (R44, R46). -/
def countFinalFailed (s : State) : State :=
  s.setStats { s.stats with finalFailedReads := s.stats.finalFailedReads + 1 }

/-- The transient recoveries counter rises by 1 (R46). -/
def countTransient (s : State) : State :=
  s.setStats { s.stats with transientRecoveries := s.stats.transientRecoveries + 1 }

/-! ### Taking a request -/

/-- A request refused by its line is answered at once (R13, R38). -/
def answerRefused (tag : HostTag) (op : HostOp) (s : State) : State :=
  match op with
  | .read => answerRead tag .refused zeroLine (countRefusal s)
  | .write _ _ => answerWrite tag .refused (countRefusal s)

/-- A write with an all-zero mask (R38). -/
def HostOp.emptyWrite : HostOp → Bool
  | .read => false
  | .write _ mask => mask == 0

/-- The request waits in the Hold List at take: behind a held request for its line, or as a write whose
location is locked (R39, R58). -/
def heldAtTake (s : State) (op : HostOp) (line : HostLine) : Bool :=
  s.hold.any (s.host.isFor line.toNat)
    || (op != .read && s.locks.lockedAt (resolve s.geom s.remap true line))

/-- The record of a request just taken (R39). -/
def takenRecord (op : HostOp) (line : HostLine) (place : Place) (arrival : Nat) : HostRec :=
  { op := op, line := line, place := place, resolution := none, sourceHalf := none, slotHalf := none,
    arrival := arrival }

/-- A request that passes R37 and R38 becomes outstanding and is held or queued (R39). -/
def admitRequest (tag : HostTag) (op : HostOp) (line : HostLine) (s : State) : State :=
  let held := heldAtTake s op line
  let rec_ := takenRecord op line (if held then .held else .queued) s.host.arrivals
  let s := setRecord tag (some rec_) (countTaken op s)
  let s := s.setHost { s.host with arrivals := s.host.arrivals + 1 }
  if held then
    (s.setHold (s.hold ++ [tag])).setStats { s.stats with holds := s.stats.holds + 1 }
  else s.setHost { s.host with requests := s.host.requests ++ [tag] }

/-- The HOST_PROTOCOL event of a duplicate tag (R37). -/
def protocolEvent (tag : HostTag) : Event :=
  { kind := .hostProtocol, source := .host, span := none, offset := none, slot := none, value := some tag.val }

/-- A host request presented: it waits upstream while accept is withdrawn, and is otherwise taken by R37,
R38 and R39. -/
def takeRequest (tag : HostTag) (op : HostOp) (line : HostLine) (s : State) : State :=
  if !accept s then s
  else if (s.host.recs[tag]).isSome then offer (protocolEvent tag) s
  else if !s.geom.usable (physOfLine line.toNat).span then answerRefused tag op s
  else if op.emptyWrite then answerWrite tag .done (countTaken op s)
  else admitRequest tag op line s

/-! ### Read completion -/

/-- A follow-on item joins the tail of the follow-on items (R40). -/
def pushFollowOn (i : Issue) (s : State) : State :=
  s.setHost { s.host with followOns := s.host.followOns ++ [i] }

/-- The fixed increment of a host read and its CORRECTED event (R43, R46). -/
def hostFixed (p : PhysLine) (s : State) : State :=
  let s := healthIncrement p.span false .host s
  if s.params.logCorrected then offer (lineEvent .corrected .host p none) s else s

/-- A host read whose data failed is answered POISONED, counted and reported (R44, R46). -/
def hostFailed (tag : HostTag) (p : PhysLine) (retries : Nat) (s : State) : State :=
  let s := answerRead tag .poisoned zeroLine s
  let s := healthIncrement p.span true .host s
  let s := offer (lineEvent .uncorrectable .host p (some retries)) s
  countFinalFailed s

/-- The retry READ of a ladder as a follow-on item (R45). -/
def retryIssue (k : Fin 4) (tag : HostTag) (era : Nat) (p : PhysLine) : Issue :=
  { req := { line := p, body := .read }, origin := .ladderRetry k tag era, reissue := false }

/-- A ladder is set. -/
def setLadder (k : Fin 4) (l : Option Ladder) (s : State) : State :=
  s.setHost { s.host with ladders := s.host.ladders.set k l }

/-- A ladder starts on a free ladder (R45). -/
def startLadder (k : Fin 4) (tag : HostTag) (p : PhysLine) (s : State) : State :=
  let s := setLadder k (some { tag := tag, line := p, used := 0, limit := s.params.retryLimit }) s
  let s := addHolder (.ladder k) p s
  let s := modifyRecord tag (fun r => { r with place := .ladder k }) s
  pushFollowOn (retryIssue k tag s.host.era p) s

/-- A first READ completes FAILED: a ladder starts, or the answer is made at once (R44). -/
def hostReadFailed (tag : HostTag) (p : PhysLine) (s : State) : State :=
  if s.params.retryLimit = 0 then hostFailed tag p 0 s
  else
    match lowestIndex Option.isNone s.host.ladders with
    | some k => startLadder k tag p s
    | none => hostFailed tag p 0 s

/-- The first READ of a host read completes (R43, R44). -/
def hostReadDone (tag : HostTag) (p : PhysLine) (res : ReadResult) (data : LineData) (s : State) : State :=
  match res with
  | .clean => answerRead tag .good data s
  | .fixed => hostFixed p (answerRead tag .good data s)
  | .poisoned => answerRead tag .poisoned zeroLine s
  | .failed => hostReadFailed tag p s

/-- A ladder ends: it is free, and its holder leaves its line (R46). -/
def endLadder (k : Fin 4) (s : State) : State := removeHolder (.ladder k) (setLadder k none s)

/-- The TRANSIENT event of a recovered ladder and its statistic (R46). -/
def hostTransient (p : PhysLine) (used : Nat) (s : State) : State :=
  countTransient (offer (lineEvent .transient .host p (some used)) s)

/-- A retry READ of a ladder completes (R46). -/
def ladderDone (k : Fin 4) (l : Ladder) (res : ReadResult) (data : LineData) (s : State) : State :=
  match res with
  | .clean => endLadder k (hostTransient l.line l.used (answerRead l.tag .good data s))
  | .fixed => endLadder k (hostFixed l.line (hostTransient l.line l.used (answerRead l.tag .good data s)))
  | .poisoned => endLadder k (answerRead l.tag .poisoned zeroLine s)
  | .failed =>
    if l.used < l.limit then pushFollowOn (retryIssue k l.tag s.host.era l.line) s
    else endLadder k (hostFailed l.tag l.line l.limit s)

/-- A read of the host port completes with a condition other than ERROR; an abandoned one is discarded
(R43 to R46, R50). -/
def hostReadCompletes (i : Issue) (res : ReadResult) (data : LineData) (s : State) : State :=
  match i.origin with
  | .hostRead tag era => if era = s.host.era then hostReadDone tag i.req.line res data s else s
  | .ladderRetry k _ era =>
    if era = s.host.era then
      match s.host.ladders[k] with
      | some l => ladderDone k l res data s
      | none => s
    else s
  | _ => s

/-! ### Write completion -/

/-- A write half of the host port completes DONE; an abandoned or orphan write is discarded (R48, R49,
R50). -/
def hostWriteCompletes (i : Issue) (s : State) : State :=
  match i.origin with
  | .hostWrite tag half era => if era = s.host.era then finishHalf tag half .done s else s
  | _ => s

/-! ### Failure -/

/-- The host port is told that a request of its own has failed (R47, R48, R49, Table 5-4). -/
def hostRequestFailed (i : Issue) (s : State) : State :=
  match i.origin with
  | .hostRead tag era => if era = s.host.era then answerRead tag .poisoned zeroLine s else s
  | .ladderRetry k tag era =>
    if era = s.host.era then endLadder k (answerRead tag .poisoned zeroLine s) else s
  | .hostWrite tag half era => if era = s.host.era then finishHalf tag half .failed s else s
  | _ => s

/-! ### Host-path reset -/

/-- A follow-on item as an orphan write (R50). -/
def orphanOf (i : Issue) : Issue := { i with origin := .orphan }

/-- The host port after HOST_RESET becomes asserted: no outstanding request, no ladder, no request item,
and the write follow-ons as orphan writes (R50). -/
def resetHost (h : HostPort) : HostPort :=
  { h with
    recs := Vector.replicate 32 none
    followOns := (h.followOns.filter (fun i => i.req.isWrite)).map orphanOf
    requests := []
    headWaits := false
    ladders := Vector.replicate 4 none
    era := h.era + 1 }

/-- The HOST_RESET event (R50). -/
def hostResetEvent : Event :=
  { kind := .hostReset, source := .host, span := none, offset := none, slot := none, value := none }

/-- HOST_RESET becomes asserted (R50, R65). -/
def hostPathReset (s : State) : State :=
  let s := s.setPins { s.pins with hostReset := true }
  let s := s.setHost (resetHost s.host)
  let s := s.setHold []
  let s := s.setLocks { s.locks with ladders := Vector.replicate 4 none }
  offer hostResetEvent s

end Sys2Proof.Machine
end

