-- ==== Sys2Proof/Machine/MemoryPort.lean ====
section
/-! DEFINITION. The memory line port (chapter 5): completion of downstream requests, reissue and failure
with the entry to FENCED (R4, R70 to R73), and the arbiter (R74, R75). -/

namespace Sys2Proof.Machine

/-- A downstream tag's state set (R69). -/
def setTag (tag : PortTag) (v : TagState) (s : State) : State :=
  s.setPort { s.port with tags := s.port.tags.set tag v }

/-! ### The fence -/

/-- Entry to FENCED: the FENCED event, then the copy engine and the sweep by their states (R4, R6, R7).
Nothing when the mode is FENCED already. -/
def enterFence (p : PhysLine) (s : State) : State :=
  if s.mode = .fenced then s
  else
    let s := s.setMode .fenced
    let s := offer (lineEvent .fenced .port p none) s
    sweepFence (copyFence s)

/-! ### ERROR -/

/-- The MEMORY_ERROR value (Table 5-3). -/
def errorValue (reissue timeout : Bool) : Nat :=
  match reissue, timeout with
  | false, false => 1
  | false, true => 2
  | true, false => 3
  | true, true => 4

/-- The request reissued: the same request with its try (R72). -/
def asReissue (i : Issue) : Issue := { i with reissue := true }

/-- The reissue waits where its originator's requests wait (R72). -/
def reissue (i : Issue) (s : State) : State :=
  match i.origin with
  | .hostRead _ era | .ladderRetry _ _ era =>
    if era = s.host.era then pushFollowOn (asReissue i) s else s
  | .hostWrite _ _ era =>
    if era = s.host.era then pushFollowOn (asReissue i) s else pushFollowOn (asReissue (orphanOf i)) s
  | .orphan => pushFollowOn (asReissue i) s
  | .copyRead | .copyRetry | .copyWrite => s.setCopy { s.copy with request := .presented (asReissue i) }
  | .sweepRead | .sweepRetry | .sweepWrite => s.setSweep { s.sweep with request := .presented (asReissue i) }

/-- The originator is told that its request has failed (R73, Table 5-4). -/
def tellFailed (i : Issue) (s : State) : State :=
  match i.origin with
  | .hostRead _ _ | .ladderRetry _ _ _ | .hostWrite _ _ _ => hostRequestFailed i s
  | .orphan => s
  | .copyRead | .copyRetry | .copyWrite => copyStepFailed s
  | .sweepRead | .sweepRetry | .sweepWrite => abandonLine s

/-- A downstream request ends in ERROR, by condition or by timeout (R72, R73). -/
def requestError (i : Issue) (timeout : Bool) (s : State) : State :=
  let s := offer (lineEvent .memoryError .port i.req.line (some (errorValue i.reissue timeout))) s
  if i.reissue then tellFailed i (enterFence i.req.line s) else reissue i s

/-! ### Completion -/

/-- What a condition means for a READ: a report about the data, or `none` for ERROR and for a condition
that belongs to a WRITE (R67). -/
def readResult : Condition → Option ReadResult
  | .clean => some .clean
  | .fixed => some .fixed
  | .failed => some .failed
  | .poisoned => some .poisoned
  | .done | .error => none

/-- A READ that completed is handed to its originator (R70). -/
def readCompletes (i : Issue) (res : ReadResult) (data : LineData) (s : State) : State :=
  match i.origin with
  | .hostRead _ _ | .ladderRetry _ _ _ => hostReadCompletes i res data s
  | .copyRead | .copyRetry => copyReadCompletes i res data s
  | .sweepRead | .sweepRetry => sweepReadCompletes i res data s
  | .hostWrite _ _ _ | .orphan | .copyWrite | .sweepWrite => s

/-- A WRITE that completed DONE is handed to its originator (R70). -/
def writeCompletes (i : Issue) (s : State) : State :=
  match i.origin with
  | .hostWrite _ _ _ | .orphan => hostWriteCompletes i s
  | .copyWrite => copyWriteCompletes i s
  | .sweepWrite => sweepWriteCompletes i s
  | .hostRead _ _ | .ladderRetry _ _ _ | .copyRead | .copyRetry | .sweepRead | .sweepRetry => s

/-- A response completes the request of an IN USE tag (R67, R70). -/
def completeIssue (i : Issue) (cond : Condition) (data : LineData) (s : State) : State :=
  match i.req.body with
  | .read =>
    match readResult cond with
    | some res => readCompletes i res data s
    | none => requestError i false s
  | .write _ _ _ => if cond = .done then writeCompletes i s else requestError i false s

/-- A downstream response arrives on a tag (R70). -/
def portResponse (tag : PortTag) (cond : Condition) (data : LineData) (s : State) : State :=
  match s.port.tags[tag] with
  | .free => s
  | .quarantined => setTag tag .free s
  | .inUse i => settle (completeIssue i cond data (setTag tag .free s))

/-- The timer of a tag expires (R71). -/
def portTimeout (tag : PortTag) (s : State) : State :=
  match s.port.tags[tag] with
  | .inUse i =>
    let s := setTag tag .quarantined s
    let s := offer (lineEvent .tagQuarantined .port i.req.line (some tag.val)) s
    settle (requestError i true s)
  | .free | .quarantined => s

/-! ### The arbiter -/

/-- A request item at the head is free to go: a read, or a write whose location is not locked (R41). -/
def requestFree (s : State) (t : HostTag) : Bool :=
  match s.host.recs[t] with
  | none => false
  | some r => r.op == .read || !s.locks.lockedAt (resolve s.geom s.remap true r.line)

/-- The foreground presents a request: a follow-on item, or a request item free to go (R74). -/
def fgPresented (s : State) : Bool :=
  match s.host.followOns with
  | _ :: _ => true
  | [] =>
    match s.host.requests with
    | [] => false
    | t :: _ => !s.host.headWaits && requestFree s t

/-- The background class presents a request (R74). -/
def bgPresented (s : State) : Bool :=
  s.copy.request.presentedIssue.isSome || s.sweep.request.presentedIssue.isSome

/-- The lowest-numbered FREE tag (R69). -/
def freeTag (p : Port) : Option PortTag := lowestIndex (fun t => t == .free) p.tags

/-- An issue takes a tag and goes to memory (R74). -/
def issueOn (tag : PortTag) (i : Issue) (s : State) : State := setTag tag (.inUse i) s

/-- A retry granted on its first issue raises its ladder's retries used (R45). -/
def countLadder (i : Issue) (s : State) : State :=
  match i.origin with
  | .ladderRetry k _ _ =>
    if i.reissue then s
    else setLadder k (s.host.ladders[k].map (fun l => { l with used := l.used + 1 })) s
  | _ => s

/-- The downstream WRITE of a half of a host write (R41). -/
def halfIssue (tag : HostTag) (half : Half) (era : Nat) (p : PhysLine) (data : LineData) (mask : ByteMask) :
    Issue :=
  { req := { line := p, body := .write data mask false }, origin := .hostWrite tag half era, reissue := false }

/-- A host request is resolved and becomes IN FLIGHT; the slot half of a dual write joins the follow-on
items (R41). -/
def issueRequest (down : PortTag) (tag : HostTag) (r : HostRec) (s : State) : State :=
  match r.op with
  | .read =>
    let res := resolve s.geom s.remap false r.line
    let s := setRecord tag (some { r with place := .inFlight, resolution := some res }) s
    issueOn down ⟨⟨res.first, .read⟩, .hostRead tag s.host.era, false⟩ s
  | .write data mask =>
    let res := resolve s.geom s.remap true r.line
    let s := setRecord tag (some { r with
      place := .inFlight, resolution := some res, sourceHalf := some .pending,
      slotHalf := res.second.map (fun _ => .pending) }) s
    let s := issueOn down (halfIssue tag .source s.host.era res.first data mask) s
    match res.second with
    | some p => pushFollowOn (halfIssue tag .slot s.host.era p data mask) s
    | none => s

/-- The foreground request at the head is granted (R41, R42). -/
def grantForeground (down : PortTag) (s : State) : State :=
  match s.host.followOns with
  | i :: rest => issueOn down i (countLadder i (s.setHost { s.host with followOns := rest }))
  | [] =>
    match s.host.requests with
    | [] => s
    | t :: rest =>
      let s := s.setHost { s.host with requests := rest }
      match s.host.recs[t] with
      | some r => issueRequest down t r s
      | none => s

/-- A retry of a background originator granted on its first issue counts as used (R100, R118). -/
def usedAfter (retry : Option Retry) (i : Issue) : Option Retry :=
  if (i.origin = .copyRetry ∨ i.origin = .sweepRetry) ∧ ¬ i.reissue then
    retry.map (fun r => { r with used := r.used + 1 })
  else retry

/-- The background request is granted, the copy engine's before the sweep's (R75). -/
def grantBackground (down : PortTag) (s : State) : State :=
  match s.copy.request with
  | .presented i =>
    issueOn down i (s.setCopy { s.copy with request := .atMemory, retry := usedAfter s.copy.retry i })
  | _ =>
    match s.sweep.request with
    | .presented i =>
      issueOn down i (s.setSweep { s.sweep with request := .atMemory, retry := usedAfter s.sweep.retry i })
    | _ => s

/-- The share counter set (R75). -/
def setShare (n : Nat) (s : State) : State := s.setPort { s.port with share := n }

/-- The arbiter chooses the foreground: it is alone, or the background's turn has not come (R75). -/
def choosesForeground (s : State) : Bool :=
  fgPresented s && (!bgPresented s || decide (s.port.share < s.params.bgShare))

/-- A grant on a free tag (R74, R75). -/
def grantOn (down : PortTag) (s : State) : State :=
  if choosesForeground s then
    setShare (if bgPresented s then min 16 (s.port.share + 1) else 0) (grantForeground down s)
  else setShare 0 (grantBackground down s)

/-- The arbiter makes one grant when a request is presented and a tag is FREE (R74); nothing is presented in
STARTUP. -/
def arbitrate (s : State) : State :=
  if s.mode != .startup && (fgPresented s || bgPresented s) then
    match freeTag s.port with
    | some down => grantOn down s
    | none => s
  else s

end Sys2Proof.Machine
end

