-- ==== Sys2Proof/Machine/ManagementLink.lean ====
section
/-! DEFINITION. The management link (chapter 11): the taking of a command (R159), the payloads (Tables 11-7
to 11-9), each command's own checks and effect, frames that fail their tests (R155), and read transactions
(R157). -/

namespace Sys2Proof.Machine

/-! ### Taking a command -/

/-- A command is taken (R156, R157, R159): refused unseen while the link is BUSY, else answered
REFUSED_STATE, BAD_PARAM for its length, or by its own checks and effect. A frame whose N is above 24 fails
the length test of R155. -/
def takeCommand (allowed lengthOk : Bool) (params : List Byte) (body : State → State) (s : State) : State :=
  if s.link.busy then s
  else if 24 < params.length then answer .badFrame [] s
  else if !allowed then answer .refusedState [] s
  else if !lengthOk then answer .badParam [] s
  else body (takeFrame s)

/-- Commands that Table 11-4 takes in ONLINE and FENCED. -/
def outsideStartup (s : State) : Bool := s.mode != .startup

/-- START and CLEAN_START are taken in HOLD (R1). -/
def inHold (s : State) : Bool := s.journal.task == .hold

/-- Commands that Table 11-4 takes in ONLINE. -/
def inOnline (s : State) : Bool := s.mode == .online

/-- The parameter byte of a one-byte command. -/
def param0 (params : List Byte) : Nat := (params.headD 0).toNat

/-! ### Codes and payloads -/

/-- The byte of a response code (Table 11-1). -/
def respByte : RespCode → Byte
  | .ok => 0x00
  | .badCheck => 0x01
  | .badFrame => 0x02
  | .unknown => 0x03
  | .badParam => 0x04
  | .refusedState => 0x05
  | .refusedInUse => 0x06
  | .queueFull => 0x07
  | .duplicate => 0x08
  | .notFound => 0x09
  | .tooLate => 0x0A
  | .noSession => 0x0B
  | .sessionOpen => 0x0C

/-- A response with its length and check bytes (Table 11-5). -/
def responseBytes (r : Response) : List Byte := frameOf (respByte r.code) r.payload

/-- The first `n` bytes of a read transaction (R157). -/
def readTransaction (n : Nat) (s : State) : List Byte :=
  let body := statusByte s :: ((s.link.response.map responseBytes).getD [])
  (body ++ List.replicate n 0xFF).take n

/-- The 7-bit address the part answers at (R154). -/
def linkAddress (s : State) : Nat := 0x2A + s.pins.addr.toNat

/-- How many bytes of a write transaction the part acknowledges after its address (R155, R156). -/
def acknowledgedNow (bytes : List Byte) (s : State) : Nat := if s.link.busy then 0 else acknowledged bytes

/-- The code of an entry's state (Table 11-7). -/
def stageCode : Stage → Nat
  | .copying => 1
  | .committing => 2
  | .aborting => 3
  | .active => 4

/-- The code of an origin (Table 11-7). -/
def originCode : RetireOrigin → Nat
  | .auto => 0
  | .command => 1
  | .resumed => 2
  | .restored => 3

/-- The seven bytes of READ_REMAP (Table 11-7). -/
def entryBytes : Option Binding → List Byte
  | none => 0 :: leOption 3 none ++ [0xFF, 0, 0]
  | some b =>
    byteOf (stageCode b.stage + 8 * originCode b.origin + 64 * b.journaled.toNat) :: leBytes 3 b.span
      ++ [byteOf b.slot, byteOf b.copied, byteOf b.poisoned]

/-- The ten bytes of READ_HEALTH (Table 11-7). -/
def placeBytes : Option HealthEntry → List Byte
  | none => 0 :: leOption 3 none ++ [0, 0, 0, 0, 0, 0]
  | some e =>
    byteOf (1 + 2 * e.spare.toNat + 4 * e.reported.toNat) :: leBytes 3 e.span
      ++ [byteOf e.fixed, byteOf e.failed] ++ leBytes 2 e.firstSeen.toNat ++ leBytes 2 e.lastSeen.toNat

/-- The code of an event kind (Table 11-9). -/
def eventCode : EventKind → Nat
  | .corrected => 1
  | .transient => 2
  | .uncorrectable => 3
  | .poisonWritten => 4
  | .lineCarriedPoison => 5
  | .threshold => 6
  | .retireQueued => 7
  | .retireDeferred => 8
  | .retireStarted => 9
  | .retireDone => 10
  | .retireCancelled => 11
  | .copyResumed => 12
  | .spareExhausted => 13
  | .spareDegraded => 14
  | .healthTableFull => 15
  | .storeFault => 16
  | .journalCompacted => 17
  | .recordTorn => 18
  | .replayConflict => 19
  | .memoryError => 20
  | .fenced => 21
  | .tagQuarantined => 22
  | .hostProtocol => 23
  | .hostReset => 24
  | .sweepPassDone => 25
  | .lost => 26

/-- The code of an event source (Table 11-8). -/
def sourceCode : Source → Nat
  | .none => 0
  | .host => 1
  | .copy => 2
  | .sweep => 3
  | .journal => 4
  | .link => 5
  | .port => 6

/-- The 12 bytes of an event record (Table 11-8). -/
def eventBytes (r : EventRecord) : List Byte :=
  leBytes 2 r.seq.toNat ++ [byteOf (eventCode r.event.kind + 32 * sourceCode r.event.source)]
    ++ leOption 3 r.event.span ++ leOption 1 r.event.offset ++ leOption 1 r.event.slot
    ++ leOption 2 r.event.value ++ leBytes 2 r.pass.toNat

/-- The code of a sweep state (Table 11-7). -/
def sweepCode : SweepState → Nat
  | .stopped => 0
  | .waiting => 1
  | .reading => 2
  | .retrying => 3
  | .writingBack => 4

/-- READ_STATS page 0 (Table 11-7). -/
def statsPage0 (t : Stats) : List Byte :=
  leBytes 4 t.hostReads.toNat ++ leBytes 4 t.hostWrites.toNat ++ leBytes 4 t.hostRefusals.toNat
    ++ leBytes 4 t.holds.toNat ++ leBytes 4 t.finalFailedReads.toNat
    ++ leBytes 4 t.transientRecoveries.toNat

/-- READ_STATS page 1, the sweep report (Table 11-7). -/
def statsPage1 (w : Sweep) : List Byte :=
  leBytes 4 (w.position + 0x10000000 * sweepCode w.state + 0x80000000 * w.accelerated.toNat)
    ++ leBytes 2 w.pass.toNat ++ leBytes 2 w.interval
    ++ leBytes 4 w.stats.linesRead.toNat ++ leBytes 4 w.stats.fixed.toNat ++ leBytes 4 w.stats.failed.toNat
    ++ leBytes 4 w.stats.skipped.toNat ++ leBytes 4 w.stats.poisonedFound.toNat

/-! ### Parameters -/

/-- The value of a parameter identifier (Table 11-2). -/
def paramValue (p : Params) (id : Nat) : Option Nat :=
  match id with
  | 1 => some p.fixedThreshold
  | 2 => some p.failedThreshold
  | 3 => some p.autoRetire.toNat
  | 4 => some p.retryLimit
  | 5 => some p.sweepInterval
  | 6 => some p.accelThreshold
  | 7 => some p.sweepEnable.toNat
  | 8 => some p.scrubPoison.toNat
  | 9 => some p.bgShare
  | 10 => some p.logCorrected.toNat
  | 11 => some p.alertMask.toNat
  | _ => none

/-- The range of a parameter identifier (Table 11-2). -/
def paramRange (id : Nat) : Option (Nat × Nat) :=
  match id with
  | 1 => some (1, 255)
  | 2 => some (1, 15)
  | 3 => some (0, 1)
  | 4 => some (0, 3)
  | 5 => some (1, 65535)
  | 6 => some (0, 65535)
  | 7 => some (0, 1)
  | 8 => some (0, 1)
  | 9 => some (1, 16)
  | 10 => some (0, 1)
  | 11 => some (0, 255)
  | _ => none

/-- A value is one the parameter may take (R160). -/
def paramInRange (id v : Nat) : Bool := (paramRange id).any (fun r => decide (r.1 ≤ v) && decide (v ≤ r.2))

/-- A parameter set, with the effect of the rules that Table 11-2 names (R160). -/
def applyParam (id v : Nat) (s : State) : State :=
  match id with
  | 1 => s.setParams { s.params with fixedThreshold := v }
  | 2 => s.setParams { s.params with failedThreshold := v }
  | 3 => s.setParams { s.params with autoRetire := v == 1 }
  | 4 => s.setParams { s.params with retryLimit := v }
  | 5 => sweepIntervalSet v s
  | 6 => s.setParams { s.params with accelThreshold := v }
  | 7 => if v = 1 then sweepStartNow s else sweepStopNow s
  | 8 => s.setParams { s.params with scrubPoison := v == 1 }
  | 9 => s.setParams { s.params with bgShare := v }
  | 10 => s.setParams { s.params with logCorrected := v == 1 }
  | 11 => s.setParams { s.params with alertMask := BitVec.ofNat 8 v }
  | _ => s

/-! ### START and CLEAN_START -/

/-- START (R1, R138), with what follows in its step when replay ends at once. -/
def startBody (s : State) : State := settle (answer .ok [] (beginReplay s))

/-- CLEAN_START (R138): a DISABLED store ends the cleaning at once. -/
def cleanBody (s : State) : State :=
  if s.journal.store = .disabled then settle (endCleaning s) else setTask (.cleanHeaders none) s

/-! ### Parameters and geometry -/

/-- The payload of the geometry (Table 11-7). -/
def geometryBytes (g : Geometry) : List Byte :=
  leBytes 3 g.memSize ++ leBytes 3 g.spareBase ++ [byteOf g.spareCount]

/-- GET_PARAM (R160). -/
def getParamBody (id : Nat) (s : State) : State :=
  if id = 0x20 then answer .ok (byteOf id :: geometryBytes s.geom) s
  else
    match paramValue s.params id with
    | some v => answer .ok (byteOf id :: leBytes 2 v) s
    | none => answer .badParam [] s

/-- SET_PARAM (R160). -/
def setParamBody (id v : Nat) (s : State) : State :=
  if paramInRange id v then answer .ok [] (applyParam id v s) else answer .badParam [] s

/-- The geometry that SET_GEOMETRY carries (Table 11-4). -/
def geometryOf (params : List Byte) : Geometry :=
  { memSize := leNat (params.take 3), spareBase := leNat ((params.drop 3).take 3),
    spareCount := leNat (params.drop 6) }

/-- The tables are in use: an entry not FREE, a queued span, or a copy engine not IDLE (R142). -/
def tablesInUse (s : State) : Bool :=
  (lowestIndex Option.isSome s.remap).isSome || !s.retire.isEmpty || s.copy.state != .idle

/-- The geometry replaced, the Health Table cleared if it differs, and the sweep's position set (R142). -/
def replaceGeometry (g : Geometry) (s : State) : State :=
  let s := if s.geom = g then s else s.setHealth emptyHealth
  sweepReposition (s.setGeom g)

/-- SET_GEOMETRY (R142). -/
def setGeometryBody (g : Geometry) (s : State) : State :=
  if !g.valid then answer .badParam [] s
  else if tablesInUse s then answer .refusedInUse [] s
  else
    let s := replaceGeometry g s
    if s.journal.store = .online then settle (enqueueRequest .geometry s) else answer .ok [] s

/-! ### Tables -/

/-- READ_REMAP (R31). -/
def readRemapBody (index : Nat) (s : State) : State :=
  if h : index < 128 then answer .ok (entryBytes s.remap[index]) s else answer .badParam [] s

/-- The position of a span in the Retirement Queue, from 1, with its origin (R93). -/
def queuePosition (q : List Queued) (span : Nat) : Option (Nat × RetireOrigin) :=
  (q.zipIdx.find? (fun e => e.1.span == span)).map (fun e => (e.2 + 1, e.1.origin))

/-- The queue byte of FIND_SPAN (Table 11-7). -/
def queueByte (q : List Queued) (span : Nat) : Byte :=
  match queuePosition q span with
  | some (n, o) => byteOf (n + 16 * originCode o)
  | none => 0

/-- The twenty bytes of FIND_SPAN (R162, Table 11-7). -/
def findSpanBytes (s : State) (span : Nat) : List Byte :=
  leOption 1 ((findEntry s.remap span).map Fin.val) ++ entryBytes (bindingOf s.remap span)
    ++ [queueByte s.retire span]
    ++ leOption 1 ((findHealth s.health span).map Fin.val)
    ++ placeBytes ((healthOf s.health span).map Prod.snd)

/-- FIND_SPAN (R162). -/
def findSpanBody (span : Nat) (s : State) : State :=
  if span ≤ Config.maxSpan then answer .ok (findSpanBytes s span) s else answer .badParam [] s

/-- READ_HEALTH (R88). -/
def readHealthBody (index : Nat) (s : State) : State :=
  if h : index < 64 then answer .ok (placeBytes s.health[index]) s else answer .badParam [] s

/-- CLEAR_HEALTH (R87). -/
def clearHealthBody (s : State) : State := answer .ok [] (s.setHealth emptyHealth)

/-! ### Retirement -/

/-- RETIRE_SPAN (R90, Table 6-4). -/
def retireSpanBody (span : Nat) (s : State) : State :=
  if span ≤ Config.maxSpan then
    match admission s span with
    | .taken => settle (answer .ok [] (takeSpan span .command .link s))
    | .range => answer .badParam [] s
    | .duplicate => answer .duplicate [] s
    | .room => answer .queueFull [] s
  else answer .badParam [] s

/-- A queued span is removed with its RETIRE_CANCELLED event (R92). -/
def cancelQueued (span : Nat) (s : State) : State :=
  let s := s.setRetire (s.retire.filter (fun e => e.span != span))
  offer (spanEvent .retireCancelled .link span none (some 1)) s

/-- CANCEL_RETIRE by where the span stands (R106, Table 7-4). -/
def cancelRetireBody (span : Nat) (s : State) : State :=
  if span ≤ Config.maxSpan then
    if isQueued s.retire span then answer .ok [] (cancelQueued span s)
    else
      match bindingOf s.remap span with
      | none => answer .notFound [] s
      | some b =>
        match b.stage with
        | .copying => settle (answer .ok [] (beginAbort .command s))
        | .aborting => answer .ok [] s
        | .committing => answer .tooLate [] s
        | .active => answer .refusedState [] s
  else answer .badParam [] s

/-! ### Events and alerts -/

/-- The payload of READ_EVENTS (R148). -/
def readEventsBytes (n : Nat) (q : Events) : List Byte :=
  byteOf q.records.length :: byteOf q.lost :: (q.records.take n).flatMap eventBytes

/-- READ_EVENTS (R148). -/
def readEventsBody (n : Nat) (s : State) : State :=
  if n = 1 ∨ n = 2 then answer .ok (readEventsBytes n s.events) s else answer .badParam [] s

/-- The oldest records removed (R149). -/
def dropRecords (n : Nat) (q : Events) : Events := { q with records := q.records.drop n }

/-- DROP_EVENTS (R149). -/
def dropEventsBody (n : Nat) (s : State) : State :=
  answer .ok [byteOf (min n s.events.records.length)] (s.setEvents (dropRecords n s.events))

/-- READ_ALERTS (R152). -/
def readAlertsBody (s : State) : State := answer .ok [s.events.flags, s.params.alertMask] s

/-- ACK_ALERTS (R152). -/
def ackAlertsBody (bits : Byte) (s : State) : State :=
  answer .ok [] (s.setEvents { s.events with flags := s.events.flags &&& ~~~bits })

/-- SET_ALERT_MASK (R153, R160). -/
def setAlertMaskBody (bits : Byte) (s : State) : State :=
  answer .ok [] (s.setParams { s.params with alertMask := bits })

/-! ### The sweep and the statistics -/

/-- SWEEP_RESTART (R124). -/
def sweepRestartBody (s : State) : State :=
  let s := sweepReposition s
  answer .ok [] (s.setSweep { s.sweep with stats := zeroPassStats })

/-- READ_STATS (R163). -/
def readStatsBody (page : Nat) (s : State) : State :=
  match page with
  | 0 => answer .ok (statsPage0 s.stats) s
  | 1 => answer .ok (statsPage1 s.sweep) s
  | _ => answer .badParam [] s

/-! ### The store -/

/-- STORE_DETACH (R140). -/
def storeDetachBody (s : State) : State :=
  match s.journal.store with
  | .disabled => answer .refusedState [] s
  | .offline => answer .ok [] s
  | .online => settle (enqueueRequest .detach s)

/-- STORE_ATTACH (R141). -/
def storeAttachBody (s : State) : State :=
  if rawOpen s then answer .sessionOpen [] s
  else if s.journal.store = .offline then settle (enqueueRequest .attach s)
  else answer .refusedState [] s

/-- The OPEN flag of RAW_SHIFT (Table 11-4). -/
def openFlag (params : List Byte) : Bool := (params.headD 0).getLsbD 0

/-- The CLOSE flag of RAW_SHIFT (Table 11-4). -/
def closeFlag (params : List Byte) : Bool := (params.headD 0).getLsbD 1

/-- The bytes of a RAW_SHIFT have been shifted: CLOSE ends the session, and the command is answered with the
sampled bytes (R143). -/
def rawShifted (close : Bool) (sampled : List Byte) (s : State) : State :=
  settle (answer .ok sampled (if close then setTask .idle s else s))

/-- RAW_SHIFT (R143): with no byte to drive it is answered at once. -/
def rawShiftBody (params : List Byte) (s : State) : State :=
  if s.journal.store != .offline then answer .refusedState [] s
  else if openFlag params && rawOpen s then answer .sessionOpen [] s
  else if !openFlag params && !rawOpen s then answer .noSession [] s
  else
    let s := setTask .raw s
    if params.drop 1 = [] then rawShifted (closeFlag params) [] s
    else s.setLink { s.link with raw := some { bytes := params.drop 1, close := closeFlag params } }

/-! ### Commands as taken -/

/-- START. -/
def runStart (ps : List Byte) (s : State) : State := takeCommand (inHold s) (ps.length == 0) ps startBody s
/-- CLEAN_START. -/
def runCleanStart (ps : List Byte) (s : State) : State :=
  takeCommand (inHold s) (ps.length == 0) ps cleanBody s
/-- GET_PARAM. -/
def runGetParam (ps : List Byte) (s : State) : State :=
  takeCommand true (ps.length == 1) ps (getParamBody (param0 ps)) s
/-- SET_PARAM. -/
def runSetParam (ps : List Byte) (s : State) : State :=
  takeCommand (outsideStartup s) (ps.length == 3) ps (setParamBody (param0 ps) (leNat (ps.drop 1))) s
/-- SET_GEOMETRY. -/
def runSetGeometry (ps : List Byte) (s : State) : State :=
  takeCommand (outsideStartup s) (ps.length == 7) ps (setGeometryBody (geometryOf ps)) s
/-- READ_REMAP. -/
def runReadRemap (ps : List Byte) (s : State) : State :=
  takeCommand (outsideStartup s) (ps.length == 1) ps (readRemapBody (param0 ps)) s
/-- FIND_SPAN. -/
def runFindSpan (ps : List Byte) (s : State) : State :=
  takeCommand (outsideStartup s) (ps.length == 3) ps (findSpanBody (leNat ps)) s
/-- READ_HEALTH. -/
def runReadHealth (ps : List Byte) (s : State) : State :=
  takeCommand (outsideStartup s) (ps.length == 1) ps (readHealthBody (param0 ps)) s
/-- CLEAR_HEALTH. -/
def runClearHealth (ps : List Byte) (s : State) : State :=
  takeCommand (outsideStartup s) (ps.length == 0) ps clearHealthBody s
/-- RETIRE_SPAN. -/
def runRetireSpan (ps : List Byte) (s : State) : State :=
  takeCommand (inOnline s) (ps.length == 3) ps (retireSpanBody (leNat ps)) s
/-- CANCEL_RETIRE. -/
def runCancelRetire (ps : List Byte) (s : State) : State :=
  takeCommand (outsideStartup s) (ps.length == 3) ps (cancelRetireBody (leNat ps)) s
/-- READ_EVENTS. -/
def runReadEvents (ps : List Byte) (s : State) : State :=
  takeCommand true (ps.length == 1) ps (readEventsBody (param0 ps)) s
/-- DROP_EVENTS. -/
def runDropEvents (ps : List Byte) (s : State) : State :=
  takeCommand true (ps.length == 1) ps (dropEventsBody (param0 ps)) s
/-- READ_ALERTS. -/
def runReadAlerts (ps : List Byte) (s : State) : State :=
  takeCommand true (ps.length == 0) ps readAlertsBody s
/-- ACK_ALERTS. -/
def runAckAlerts (ps : List Byte) (s : State) : State :=
  takeCommand true (ps.length == 1) ps (ackAlertsBody (ps.headD 0)) s
/-- SET_ALERT_MASK. -/
def runSetAlertMask (ps : List Byte) (s : State) : State :=
  takeCommand (outsideStartup s) (ps.length == 1) ps (setAlertMaskBody (ps.headD 0)) s
/-- SWEEP_START. -/
def runSweepStart (ps : List Byte) (s : State) : State :=
  takeCommand (inOnline s) (ps.length == 0) ps (fun t => answer .ok [] (sweepStartNow t)) s
/-- SWEEP_STOP. -/
def runSweepStop (ps : List Byte) (s : State) : State :=
  takeCommand (outsideStartup s) (ps.length == 0) ps (fun t => answer .ok [] (sweepStopNow t)) s
/-- SWEEP_RESTART. -/
def runSweepRestart (ps : List Byte) (s : State) : State :=
  takeCommand (outsideStartup s) (ps.length == 0) ps sweepRestartBody s
/-- READ_STATS. -/
def runReadStats (ps : List Byte) (s : State) : State :=
  takeCommand (outsideStartup s) (ps.length == 1) ps (readStatsBody (param0 ps)) s
/-- CLEAR_STATS. -/
def runClearStats (ps : List Byte) (s : State) : State :=
  takeCommand (outsideStartup s) (ps.length == 0) ps (fun t => answer .ok [] (t.setStats zeroStats)) s
/-- STORE_DETACH. -/
def runStoreDetach (ps : List Byte) (s : State) : State :=
  takeCommand (outsideStartup s) (ps.length == 0) ps storeDetachBody s
/-- STORE_ATTACH. -/
def runStoreAttach (ps : List Byte) (s : State) : State :=
  takeCommand (outsideStartup s) (ps.length == 0) ps storeAttachBody s
/-- RAW_SHIFT. -/
def runRawShift (ps : List Byte) (s : State) : State :=
  takeCommand (outsideStartup s) (decide (1 ≤ ps.length) && decide (ps.length ≤ 17)) ps (rawShiftBody ps) s

/-- The command that a code of Table 11-4 names, taken with its parameter bytes (R159). -/
def runCode (code : Nat) (ps : List Byte) (s : State) : State :=
  match code with
  | 0x01 => runStart ps s
  | 0x02 => runCleanStart ps s
  | 0x10 => runGetParam ps s
  | 0x11 => runSetParam ps s
  | 0x12 => runSetGeometry ps s
  | 0x20 => runReadRemap ps s
  | 0x21 => runFindSpan ps s
  | 0x22 => runReadHealth ps s
  | 0x23 => runClearHealth ps s
  | 0x30 => runRetireSpan ps s
  | 0x31 => runCancelRetire ps s
  | 0x40 => runReadEvents ps s
  | 0x41 => runDropEvents ps s
  | 0x42 => runReadAlerts ps s
  | 0x43 => runAckAlerts ps s
  | 0x44 => runSetAlertMask ps s
  | 0x50 => runSweepStart ps s
  | 0x51 => runSweepStop ps s
  | 0x52 => runSweepRestart ps s
  | 0x58 => runReadStats ps s
  | 0x59 => runClearStats ps s
  | 0x60 => runStoreDetach ps s
  | 0x61 => runStoreAttach ps s
  | 0x62 => runRawShift ps s
  | _ => answer .unknown [] s

/-- A write transaction at its end (R155, R156): refused while BUSY, nothing when empty, else judged by the
length, check and code tests; a frame that passes them is the command it names. -/
def takeTransaction (bytes : List Byte) (s : State) : State :=
  if s.link.busy then s
  else if bytes = [] then s
  else if !frameLengthOk bytes then answer .badFrame [] s
  else if !frameCheckOk bytes then answer .badCheck [] s
  else if !frameCodeOk bytes then answer .unknown [] s
  else runCode (frameCode bytes).toNat (frameParams bytes) s

/-! ### The bus -/

/-- The part acknowledges an address on the bus: its own, in every mode, BUSY or not, and no other (R154). -/
def acksAddress (addr : BitVec 7) (s : State) : Bool := addr.toNat == linkAddress s

/-- A write transaction on the bus, with its address: the part takes no part in one for another address
(R154), and acts on its own at the end (R155, R156). -/
def busWrite (addr : BitVec 7) (bytes : List Byte) (s : State) : State :=
  if acksAddress addr s then takeTransaction bytes s else s

/-- What the part acknowledges of a write transaction: the address, and how many bytes after it (R154 to
R156). -/
def busAcks (addr : BitVec 7) (bytes : List Byte) (s : State) : Bool × Nat :=
  if acksAddress addr s then (true, acknowledgedNow bytes s) else (false, 0)

/-- What the part sends in a read transaction of `n` bytes on the bus: nothing for another address (R154),
else the status byte and the response (R157). -/
def busRead (addr : BitVec 7) (n : Nat) (s : State) : Option (List Byte) :=
  if acksAddress addr s then some (readTransaction n s) else none

/-- The part's own address as it stands on the bus (R154). -/
def ownAddress (s : State) : BitVec 7 := BitVec.ofNat 7 (linkAddress s)

end Sys2Proof.Machine
end

