-- ==== Sys2Proof/Machine/Commands.lean ====
section
/-! DEFINITION. The meanings of the management link's rows, one definition a row: each is the command of its
name taken with the parameter bytes of its frame. Every meaning answers a next state. -/

namespace Sys2Proof.Machine

/-- A next state. -/
abbrev goesTo (s : State) : Host.Outcome State Fault Refusal := .next s

/-- BUSY_WRITE_REFUSED: the transaction is refused at its first byte and discarded; no block sees it, even
if BUSY clears before it ends (R156). -/
def execBusyWriteRefused (_bytes : List Byte) (s : State) : Host.Outcome State Fault Refusal := goesTo s

/-- UNKNOWN_FRAME: a write transaction to the part's own address (R154), judged by R155. -/
def execUnknownFrame (bytes : List Byte) (s : State) : Host.Outcome State Fault Refusal :=
  goesTo (busWrite (ownAddress s) bytes s)

/-- START (R1, R138): leaves HOLD for replay, answered OK in that step. -/
def execStart (ps : List Byte) (s : State) : Host.Outcome State Fault Refusal := goesTo (runStart ps s)

/-- CLEAN_START (R138): leaves HOLD for cleaning; BUSY until the cleaning ends. -/
def execCleanStart (ps : List Byte) (s : State) : Host.Outcome State Fault Refusal := goesTo (runCleanStart ps s)

/-- GET_PARAM (R160). -/
def execGetParam (ps : List Byte) (s : State) : Host.Outcome State Fault Refusal := goesTo (runGetParam ps s)

/-- SET_PARAM (R160). -/
def execSetParam (ps : List Byte) (s : State) : Host.Outcome State Fault Refusal := goesTo (runSetParam ps s)

/-- SET_GEOMETRY (R142). -/
def execSetGeometry (ps : List Byte) (s : State) : Host.Outcome State Fault Refusal :=
  goesTo (runSetGeometry ps s)

/-- READ_REMAP (R31). -/
def execReadRemap (ps : List Byte) (s : State) : Host.Outcome State Fault Refusal := goesTo (runReadRemap ps s)

/-- FIND_SPAN (R162). -/
def execFindSpan (ps : List Byte) (s : State) : Host.Outcome State Fault Refusal := goesTo (runFindSpan ps s)

/-- READ_HEALTH (R88). -/
def execReadHealth (ps : List Byte) (s : State) : Host.Outcome State Fault Refusal := goesTo (runReadHealth ps s)

/-- CLEAR_HEALTH (R87). -/
def execClearHealth (ps : List Byte) (s : State) : Host.Outcome State Fault Refusal :=
  goesTo (runClearHealth ps s)

/-- RETIRE_SPAN (R90, R91). -/
def execRetireSpan (ps : List Byte) (s : State) : Host.Outcome State Fault Refusal := goesTo (runRetireSpan ps s)

/-- CANCEL_RETIRE (R92, R106). -/
def execCancelRetire (ps : List Byte) (s : State) : Host.Outcome State Fault Refusal :=
  goesTo (runCancelRetire ps s)

/-- READ_EVENTS (R148). -/
def execReadEvents (ps : List Byte) (s : State) : Host.Outcome State Fault Refusal := goesTo (runReadEvents ps s)

/-- DROP_EVENTS (R149). -/
def execDropEvents (ps : List Byte) (s : State) : Host.Outcome State Fault Refusal := goesTo (runDropEvents ps s)

/-- READ_ALERTS (R152). -/
def execReadAlerts (ps : List Byte) (s : State) : Host.Outcome State Fault Refusal := goesTo (runReadAlerts ps s)

/-- ACK_ALERTS (R152). -/
def execAckAlerts (ps : List Byte) (s : State) : Host.Outcome State Fault Refusal := goesTo (runAckAlerts ps s)

/-- SET_ALERT_MASK (R153, R160). -/
def execSetAlertMask (ps : List Byte) (s : State) : Host.Outcome State Fault Refusal :=
  goesTo (runSetAlertMask ps s)

/-- SWEEP_START (R123). -/
def execSweepStart (ps : List Byte) (s : State) : Host.Outcome State Fault Refusal := goesTo (runSweepStart ps s)

/-- SWEEP_STOP (R123). -/
def execSweepStop (ps : List Byte) (s : State) : Host.Outcome State Fault Refusal := goesTo (runSweepStop ps s)

/-- SWEEP_RESTART (R124). -/
def execSweepRestart (ps : List Byte) (s : State) : Host.Outcome State Fault Refusal :=
  goesTo (runSweepRestart ps s)

/-- READ_STATS (R163). -/
def execReadStats (ps : List Byte) (s : State) : Host.Outcome State Fault Refusal := goesTo (runReadStats ps s)

/-- CLEAR_STATS (R163). -/
def execClearStats (ps : List Byte) (s : State) : Host.Outcome State Fault Refusal := goesTo (runClearStats ps s)

/-- STORE_DETACH (R140). -/
def execStoreDetach (ps : List Byte) (s : State) : Host.Outcome State Fault Refusal :=
  goesTo (runStoreDetach ps s)

/-- STORE_ATTACH (R141). -/
def execStoreAttach (ps : List Byte) (s : State) : Host.Outcome State Fault Refusal :=
  goesTo (runStoreAttach ps s)

/-- RAW_SHIFT (R143). -/
def execRawShift (ps : List Byte) (s : State) : Host.Outcome State Fault Refusal := goesTo (runRawShift ps s)

/-- RAW_SHIFT_DONE (R143): one byte is sampled for each byte driven; without such a shift under way, or with
another number of bytes, the event cannot arise and nothing changes (notes/assumptions/3.md). -/
def execRawShiftDone (sampled : List Byte) (s : State) : Host.Outcome State Fault Refusal :=
  goesTo (match s.link.raw with
    | some r => if sampled.length = r.bytes.length then rawShifted r.close sampled s else s
    | none => s)

end Sys2Proof.Machine
end

