-- ==== Sys2Proof/Machine/Resets.lean ====
section
/-! DEFINITION. The meanings of the two resets and of the host line port's rows. -/

namespace Sys2Proof.Machine

/-- The part after a full reset with the straps as sampled: in HOLD when HOLD is high, else replaying at
once (R1). The level of HOST_RESET is an input and stays; the queue of waiting commands is the model's. -/
def fullResetState (hold storeEn : Bool) (addr : BitVec 2) (s : State) : State :=
  let fresh := ((State.fresh hold storeEn addr).setPins
    { hold := hold, storeEn := storeEn, addr := addr, hostReset := s.pins.hostReset }).setPending s.pending
  if hold then fresh else beginReplay (setTask .idle fresh)

/-- FULL_RESET (R1). -/
def execFullReset (hold storeEn : Bool) (addr : BitVec 2) (s : State) : Host.Outcome State Fault Refusal :=
  goesTo (fullResetState hold storeEn addr s)

/-- HOST_RESET_ASSERT (R50); nothing changes while it is asserted already. -/
def execHostResetAssert (s : State) : Host.Outcome State Fault Refusal :=
  goesTo (if s.pins.hostReset then s else hostPathReset s)

/-- HOST_RESET_RELEASE (R51): accept follows from R36. -/
def execHostResetRelease (s : State) : Host.Outcome State Fault Refusal :=
  goesTo (s.setPins { s.pins with hostReset := false })

/-- LINE_READ (R37, R38, R39). -/
def execLineRead (tag : HostTag) (line : HostLine) (s : State) : Host.Outcome State Fault Refusal :=
  goesTo (takeRequest tag .read line s)

/-- LINE_WRITE (R37, R38, R39). -/
def execLineWrite (tag : HostTag) (line : HostLine) (data : LineData) (mask : ByteMask) (s : State) :
    Host.Outcome State Fault Refusal :=
  goesTo (takeRequest tag (.write data mask) line s)

/-- The head of the host issue queue is a LINE WRITE to be diverted: no follow-on item stands ahead of it,
it does not wait already, and its location is locked (R41, R59). -/
def diversionDue (s : State) : Bool := s.host.followOns.isEmpty && !s.host.headWaits && headLocked s

/-- HOLD_DIVERSION (R59). -/
def execHoldDiversion (s : State) : Host.Outcome State Fault Refusal :=
  goesTo (if diversionDue s then divertHead s else s)

end Sys2Proof.Machine
end

