-- ==== Sys2Proof/Machine/Background.lean ====
section
/-! DEFINITION. The meanings of the memory port's rows and of the copy engine's and the sweep's. Each row
whose cause does not hold changes nothing (notes/assumptions/3.md). -/

namespace Sys2Proof.Machine

/-- ARBITER_GRANT (R74, R75). -/
def execArbiterGrant (s : State) : Host.Outcome State Fault Refusal := goesTo (arbitrate s)

/-- DOWNSTREAM_RESPONSE (R67, R70). -/
def execDownstreamResponse (tag : PortTag) (cond : Condition) (data : LineData) (s : State) :
    Host.Outcome State Fault Refusal :=
  goesTo (portResponse tag cond data s)

/-- TAG_TIMEOUT (R71). -/
def execTagTimeout (tag : PortTag) (s : State) : Host.Outcome State Fault Refusal := goesTo (portTimeout tag s)

/-- COPY_START (R95, R96), with what follows in its step. -/
def execCopyStart (s : State) : Host.Outcome State Fault Refusal :=
  goesTo (if mayStart s && !s.retire.isEmpty then settle (considerStart s) else s)

/-- COPY_READ_PRESENT (R98). -/
def execCopyReadPresent (s : State) : Host.Outcome State Fault Refusal := goesTo (copyReadIfDue s)

/-- ABORT_END (R21, R109), with what follows in its step. -/
def execAbortEnd (s : State) : Host.Outcome State Fault Refusal :=
  goesTo (if abortEndDue s then settle (abortEndIfDue s) else s)

/-- SWEEP_INTERVAL_EXPIRY (R116): the timer runs only while the sweep is WAITING and the bridge ONLINE
(R115). -/
def execSweepIntervalExpiry (s : State) : Host.Outcome State Fault Refusal :=
  goesTo (if s.sweep.timer.isSome && s.sweep.state == .waiting && s.mode == .online then sweepExpire s else s)

/-- SWEEP_READ_PRESENT (R117). -/
def execSweepReadPresent (s : State) : Host.Outcome State Fault Refusal := goesTo (sweepReadIfDue s)

end Sys2Proof.Machine
end

