-- ==== Sys2Proof/Machine/Store.lean ====
section
/-! DEFINITION. The meanings of the journal controller's rows. A completion without its operation under way
cannot arise and changes nothing (notes/assumptions/3.md). -/

namespace Sys2Proof.Machine

/-- JOURNAL_SERVE_REQUEST (R131), with what follows in its step. -/
def execJournalServeRequest (s : State) : Host.Outcome State Fault Refusal :=
  goesTo (if serveDue s then settle (serveHead s) else s)

/-- PAGE_PROGRAM_DONE (R127): verified when the bytes read back are those programmed, else a read-back
mismatch. -/
def execPageProgramDone (readBack : List Byte) (s : State) : Host.Outcome State Fault Refusal :=
  goesTo (match programmed s with
    | some (half, _, bytes) =>
      if readBack = bytes then settle (verified s)
      else settle (storeFault (faultValue s.journal.task) half true s)
    | none => s)

/-- PROGRAM_LIMIT_EXPIRY (R127, R139). -/
def execProgramLimitExpiry (s : State) : Host.Outcome State Fault Refusal :=
  goesTo (match programmed s with
    | some (half, _, _) => settle (storeFault (faultValue s.journal.task) half false s)
    | none => s)

/-- SECTOR_ERASE_DONE (R127). -/
def execSectorEraseDone (s : State) : Host.Outcome State Fault Refusal :=
  goesTo (match erasing s.journal.task with
    | some _ => settle (erased s)
    | none => s)

/-- ERASE_LIMIT_EXPIRY (R127, R139). -/
def execEraseLimitExpiry (s : State) : Host.Outcome State Fault Refusal :=
  goesTo (match erasing s.journal.task with
    | some half => settle (storeFault (faultValue s.journal.task) (some half) false s)
    | none => s)

/-- The controller is in a flash read of headers or records. -/
def readingFlash : Task → Bool
  | .replayHeaders _ | .replayRecords _ _ | .cleanHeaders _ | .attachHeaders _ => true
  | .idle | .hold | .initErase | .initHeader | .cleanErase _ _ | .cleanHeader | .append | .compact _ _ _
  | .attachReady | .reconcile _ _ | .raw => false

/-- JOURNAL_READ_DONE (R135, R136, R138, R141): the positions read are taken in order. -/
def execJournalReadDone (positions : List (List Byte)) (s : State) : Host.Outcome State Fault Refusal :=
  goesTo (if readingFlash s.journal.task then settle (positions.foldl (fun t p => readPosition p t) s) else s)

/-- ATTACH_READY_EXPIRY (R141, R139): store fault value 6, which concerns no half. -/
def execAttachReadyExpiry (s : State) : Host.Outcome State Fault Refusal :=
  goesTo (if s.journal.task = .attachReady then settle (storeFault 6 none false s) else s)

/-- STORE_READY (R141): the attach goes on to read both headers. -/
def execStoreReady (s : State) : Host.Outcome State Fault Refusal :=
  goesTo (if s.journal.task = .attachReady then setTask (.attachHeaders none) s else s)

end Sys2Proof.Machine
end

