-- ==== Sys2Proof/Machine/Dispatch.lean ====
section
/-! DEFINITION. One arm for each constructor of Instr. -/

namespace Sys2Proof.Machine

/-- The effect of a command on everything but the queue of waiting commands. -/
def exec (i : Instr) (s : State) : Host.Outcome State Fault Refusal :=
  match i with
  | .fullReset hold storeEn addr => Sys2Proof.Machine.execFullReset hold storeEn addr s
  | .hostResetAssert => Sys2Proof.Machine.execHostResetAssert s
  | .hostResetRelease => Sys2Proof.Machine.execHostResetRelease s
  | .lineRead tag line => Sys2Proof.Machine.execLineRead tag line s
  | .lineWrite tag line data mask => Sys2Proof.Machine.execLineWrite tag line data mask s
  | .arbiterGrant => Sys2Proof.Machine.execArbiterGrant s
  | .holdDiversion => Sys2Proof.Machine.execHoldDiversion s
  | .downstreamResponse tag cond data => Sys2Proof.Machine.execDownstreamResponse tag cond data s
  | .tagTimeout tag => Sys2Proof.Machine.execTagTimeout tag s
  | .copyStart => Sys2Proof.Machine.execCopyStart s
  | .copyReadPresent => Sys2Proof.Machine.execCopyReadPresent s
  | .abortEnd => Sys2Proof.Machine.execAbortEnd s
  | .sweepIntervalExpiry => Sys2Proof.Machine.execSweepIntervalExpiry s
  | .sweepReadPresent => Sys2Proof.Machine.execSweepReadPresent s
  | .journalServeRequest => Sys2Proof.Machine.execJournalServeRequest s
  | .pageProgramDone readBack => Sys2Proof.Machine.execPageProgramDone readBack s
  | .programLimitExpiry => Sys2Proof.Machine.execProgramLimitExpiry s
  | .sectorEraseDone => Sys2Proof.Machine.execSectorEraseDone s
  | .eraseLimitExpiry => Sys2Proof.Machine.execEraseLimitExpiry s
  | .journalReadDone positions => Sys2Proof.Machine.execJournalReadDone positions s
  | .attachReadyExpiry => Sys2Proof.Machine.execAttachReadyExpiry s
  | .busyWriteRefused bytes => Sys2Proof.Machine.execBusyWriteRefused bytes s
  | .unknownFrame bytes => Sys2Proof.Machine.execUnknownFrame bytes s
  | .start ps => Sys2Proof.Machine.execStart ps s
  | .cleanStart ps => Sys2Proof.Machine.execCleanStart ps s
  | .getParam ps => Sys2Proof.Machine.execGetParam ps s
  | .setParam ps => Sys2Proof.Machine.execSetParam ps s
  | .setGeometry ps => Sys2Proof.Machine.execSetGeometry ps s
  | .readRemap ps => Sys2Proof.Machine.execReadRemap ps s
  | .findSpan ps => Sys2Proof.Machine.execFindSpan ps s
  | .readHealth ps => Sys2Proof.Machine.execReadHealth ps s
  | .clearHealth ps => Sys2Proof.Machine.execClearHealth ps s
  | .retireSpan ps => Sys2Proof.Machine.execRetireSpan ps s
  | .cancelRetire ps => Sys2Proof.Machine.execCancelRetire ps s
  | .readEvents ps => Sys2Proof.Machine.execReadEvents ps s
  | .dropEvents ps => Sys2Proof.Machine.execDropEvents ps s
  | .readAlerts ps => Sys2Proof.Machine.execReadAlerts ps s
  | .ackAlerts ps => Sys2Proof.Machine.execAckAlerts ps s
  | .setAlertMask ps => Sys2Proof.Machine.execSetAlertMask ps s
  | .sweepStart ps => Sys2Proof.Machine.execSweepStart ps s
  | .sweepStop ps => Sys2Proof.Machine.execSweepStop ps s
  | .sweepRestart ps => Sys2Proof.Machine.execSweepRestart ps s
  | .readStats ps => Sys2Proof.Machine.execReadStats ps s
  | .clearStats ps => Sys2Proof.Machine.execClearStats ps s
  | .storeDetach ps => Sys2Proof.Machine.execStoreDetach ps s
  | .storeAttach ps => Sys2Proof.Machine.execStoreAttach ps s
  | .rawShift ps => Sys2Proof.Machine.execRawShift ps s
  | .rawShiftDone sampled => Sys2Proof.Machine.execRawShiftDone sampled s
  | .storeReady => Sys2Proof.Machine.execStoreReady s

end Sys2Proof.Machine
end

