-- ==== Sys2Proof/Safety.lean ====
section
/-! DEFINITION. What counts as a sound state, in the terms that claims use: the Event Queue's order (R144),
the capacities and ranges of the tables, the uniqueness of spans and slots (R26, R27), and that nothing the
rules let follow in a step is left for a later one. -/

namespace Sys2Proof.Machine

/-! ### The Event Queue -/

/-- The records carry consecutive sequence numbers, modulo 65,536, up to the one before the counter (R144). -/
def Events.consecutive (q : Events) : Prop :=
  ∀ i, (h : i < q.records.length) → q.records[i].seq = q.seq - BitVec.ofNat 16 (q.records.length - i)

/-- The Event Queue is sound (R144): at most 32 records, a lost count of at most 255, consecutive numbers. -/
structure Events.Sound (q : Events) : Prop where
  room : q.records.length ≤ 32
  lost : q.lost ≤ 255
  order : q.consecutive

/-! ### Capacities and ranges -/

/-- Counts within their limits, and no physical span with two entries (R78). -/
structure HealthSound (h : Health) : Prop where
  counts : ∀ i : Fin 64, ∀ e ∈ h[i], e.fixed ≤ 255 ∧ e.failed ≤ 15
  unique : ∀ i j : Fin 64, ∀ e ∈ h[i], ∀ f ∈ h[j], e.span = f.span → i = j

/-- Every parameter within its range (Table 11-2). -/
structure ParamsSound (p : Params) : Prop where
  fixedThreshold : 1 ≤ p.fixedThreshold ∧ p.fixedThreshold ≤ 255
  failedThreshold : 1 ≤ p.failedThreshold ∧ p.failedThreshold ≤ 15
  retryLimit : p.retryLimit ≤ 3
  sweepInterval : 1 ≤ p.sweepInterval ∧ p.sweepInterval ≤ 65535
  accelThreshold : p.accelThreshold ≤ 65535
  bgShare : 1 ≤ p.bgShare ∧ p.bgShare ≤ 16

/-- The copy's cursor and every entry's copied count within their ranges (Table 7-1, R17). -/
structure CopySound (s : State) : Prop where
  cursor : s.copy.cursor ≤ 63
  copied : ∀ i : Fin 128, ∀ b ∈ s.remap[i], b.copied ≤ 64

/-- The capacities of the Hold List (R57), the Retirement Queue (R89) and the share counter (R75), the
Health Table's limits (R78), the parameters' ranges (R160), a valid geometry (R11) and the copied counts
(R17). -/
structure WithinLimits (s : State) : Prop where
  hold : s.hold.length ≤ 8
  retire : s.retire.length ≤ 8
  share : s.port.share ≤ 16
  health : HealthSound s.health
  params : ParamsSound s.params
  geom : s.geom.valid = true
  copy : CopySound s

/-! ### Spans and slots -/

/-- The journal controller is in HOLD or in start-up work (R130). -/
def startWork : Task → Bool
  | .hold | .replayHeaders _ | .replayRecords _ _ | .initErase | .initHeader | .cleanHeaders _
  | .cleanErase _ _ | .cleanHeader => true
  | .idle | .append | .compact _ _ _ | .attachReady | .attachHeaders _ | .reconcile _ _ | .raw => false

/-- The controller has not yet taken a record of replay (R135). -/
def beforeRecords : Task → Bool
  | .hold | .replayHeaders _ => true
  | _ => false

/-- Spans and slots are bound once (R26, R27): no two entries share a span or a slot, no span is queued
twice or both queued and bound, every bound or queued span is usable and every bound slot in the pool, at
most one entry is under copy and it is the copy engine's, the bridge is not ONLINE during start-up work, and
the tables are empty before that work fills them. -/
structure BoundOnce (s : State) : Prop where
  entries : ∀ i j : Fin 128, ∀ b ∈ s.remap[i], ∀ c ∈ s.remap[j], b.span = c.span ∨ b.slot = c.slot → i = j
  usable : ∀ i : Fin 128, ∀ b ∈ s.remap[i], s.geom.usable b.span = true
  slots : ∀ i : Fin 128, ∀ b ∈ s.remap[i], b.slot < s.geom.spareCount
  queue : (s.retire.map Queued.span).Nodup
  queueUsable : ∀ q ∈ s.retire, s.geom.usable q.span = true
  apart : ∀ q ∈ s.retire, ∀ i : Fin 128, ∀ b ∈ s.remap[i], b.span ≠ q.span
  oneCopy : ∀ i : Fin 128, ∀ b ∈ s.remap[i], b.stage ≠ .active →
    s.copy.state ≠ .idle ∧ s.copy.job.map CopyJob.entry = some i
  startMode : startWork s.journal.task = true → s.mode ≠ .online
  startQueue : startWork s.journal.task = true → s.retire = []
  startTable : beforeRecords s.journal.task = true → ∀ i : Fin 128, s.remap[i] = none

/-! ### Nothing is left due -/

/-- A copy start, or a report of spare exhaustion, is due (R95, R96). -/
def startDue (s : State) : Bool :=
  mayStart s && !s.retire.isEmpty
    && (((freeSlot s.geom s.remap).isSome && (freeEntry s.remap).isSome) || !s.copy.exhausted)

/-- Nothing is due: no request to serve (R131), no abort to end (R21), no copy to start (R95), no READ of a
quiet line to present (R98, R117). -/
def settled (s : State) : Bool :=
  !serveDue s && !abortEndDue s && !startDue s && !copyReadDue s && !sweepReadDue s

/-- SWEEP is held only while a line is in progress (Table 4-1). -/
def sweepLockSound (s : State) : Bool := lineInProgress s.sweep || s.locks.sweep.isNone

/-! ### Records asked of the journal -/

/-- A record requested now is not skipped, and an IDLE controller can start on it at once: the store is ONLINE
and no raw session is open; an IDLE controller has an empty list and room in the live half (R131, R132). -/
abbrev Journal.TakesRecords (j : Journal) : Prop :=
  j.store = .online ∧ j.task ≠ .raw ∧ (j.task = .idle → j.requests = [] ∧ j.next < 256)

/-- The journal controller once such a record is requested: it stands at the tail of the list, and an IDLE
controller has become APPENDING (R131, R132). -/
def Journal.asked (j : Journal) (r : JRecord) : Journal :=
  { j with task := if j.task = .idle then .append else j.task, requests := j.requests ++ [.record r] }

/-- The half that two header positions make live, with its header: the valid header of the higher epoch, half A
among equals, or none when neither is valid (R128). -/
def LiveHalf (a b : List Byte) (live : Option (HalfId × Header)) : Prop :=
  (live = none ∧ validHeader a = none ∧ validHeader b = none) ∨
  (∃ h, live = some (.a, h) ∧ validHeader a = some h ∧ ∀ g, validHeader b = some g → g.epoch ≤ h.epoch) ∨
  (∃ h, live = some (.b, h) ∧ validHeader b = some h ∧ ∀ g, validHeader a = some g → g.epoch < h.epoch)

/-! ### Requests at memory -/

/-- The originator is no outstanding host request: an orphan write, or a request of before the last host-path
reset (R50). -/
def Originator.forgotten (era : Nat) : Originator → Bool
  | .hostRead _ e | .ladderRetry _ _ e | .hostWrite _ _ e => e != era
  | .orphan => true
  | .copyRead | .copyRetry | .copyWrite | .sweepRead | .sweepRetry | .sweepWrite => false

/-- The originator is the copy engine (R69). -/
def Originator.isCopy : Originator → Bool
  | .copyRead | .copyRetry | .copyWrite => true
  | .hostRead _ _ | .ladderRetry _ _ _ | .hostWrite _ _ _ | .orphan | .sweepRead | .sweepRetry
  | .sweepWrite => false

/-- The originator is the sweep (R69). -/
def Originator.isSweep : Originator → Bool
  | .sweepRead | .sweepRetry | .sweepWrite => true
  | .hostRead _ _ | .ladderRetry _ _ _ | .hostWrite _ _ _ | .orphan | .copyRead | .copyRetry
  | .copyWrite => false

/-- A response with this condition ends the request in ERROR: the condition is ERROR, or does not belong to
the kind of the request (R67, R70). -/
def DownReq.endsInError (r : DownReq) (c : Condition) : Bool :=
  match r.body with
  | .read => c == .error || c == .done
  | .write _ _ _ => c != .done

/-! ### The host's view -/

/-- A response carries the CONTAIN mark (R34). -/
def UpResponse.contained : UpResponse → Bool
  | .readData _ _ _ c => c
  | .writeDone _ _ c => c

/-! ### Downstream tags -/

/-- A tag is the lowest-numbered FREE tag (R69). -/
def Port.LowestFree (p : Port) (d : PortTag) : Prop :=
  p.tags[d] = .free ∧ ∀ e : PortTag, e < d → p.tags[e] ≠ .free

/-! ### The link's view -/

/-- The link once a command is answered: not BUSY, with that response (R157). -/
def replied (code : RespCode) (payload : List Byte) : Link :=
  { busy := false, response := some { code := code, payload := payload }, raw := none }

/-- The link while a command waits for its answer: BUSY, with no response (R157). -/
def waiting : Link := { busy := true, response := none, raw := none }

/-- The commands of Table 11-4 by their codes. -/
def linkCommands : List (Byte × (List Byte → Instr)) :=
  [(0x01, .start), (0x02, .cleanStart), (0x10, .getParam), (0x11, .setParam), (0x12, .setGeometry),
   (0x20, .readRemap), (0x21, .findSpan), (0x22, .readHealth), (0x23, .clearHealth), (0x30, .retireSpan),
   (0x31, .cancelRetire), (0x40, .readEvents), (0x41, .dropEvents), (0x42, .readAlerts),
   (0x43, .ackAlerts), (0x44, .setAlertMask), (0x50, .sweepStart), (0x51, .sweepStop),
   (0x52, .sweepRestart), (0x58, .readStats), (0x59, .clearStats), (0x60, .storeDetach),
   (0x61, .storeAttach), (0x62, .rawShift)]

/-- The codes taken in all modes (Table 11-4). -/
def anyModeCodes : List Byte := [0x10, 0x40, 0x41, 0x42, 0x43]
/-- The codes taken in HOLD only (Table 11-4). -/
def holdCodes : List Byte := [0x01, 0x02]
/-- The codes taken in ONLINE only (Table 11-4). -/
def onlineCodes : List Byte := [0x30, 0x50]

/-- The parameter lengths that Table 11-4 gives for a code. -/
def lengthsOf (code : Byte) : List Nat :=
  if code = 0x62 then (List.range 17).map (· + 1)
  else if code = 0x12 then [7]
  else if code ∈ [(0x11 : Byte), 0x21, 0x30, 0x31] then [3]
  else if code ∈ [(0x10 : Byte), 0x20, 0x22, 0x40, 0x41, 0x43, 0x44, 0x58] then [1]
  else [0]

end Sys2Proof.Machine
end

