-- ==== Sys2Proof/Certificates/Slice0/Obligations.lean ====
section
/-! DEFINITION. The statements for the provers, one definition each. Where a statement's last hypothesis is
that a state is `settled`, that state is the one its conclusion names: nothing is then left for the rules to
do in the same step, and the statement NothingIsLeftDue says that every step ends in such a state. -/

open Sys2Proof Sys2Proof.Machine

/-! ### The queue of commands -/

/-- A step is the front command's effect on the state with the rest of the queue; an empty queue idles (the
model's own, notes/assumptions/2.md). -/
def Obligations.StepRunsFrontCommand : Prop :=
  (∀ (c : Instr) (rest : List Instr) (s : State),
    s.pending = c :: rest → step s = exec c { s with pending := rest }) ∧
  (∀ s : State, s.pending = [] → step s = .next s)

/-- Every command answers a next state and leaves the queue of commands alone. The queue is the model's own
(notes/assumptions/2.md), and so are the two choices in this: a row whose cause does not hold changes nothing
(notes/assumptions/3.md), and a full reset keeps the queue (notes/assumptions/15.md). -/
def Obligations.CommandsLeaveTheQueue : Prop :=
  ∀ (c : Instr) (s : State), ∃ t, exec c s = .next t ∧ t.pending = s.pending

/-! ### Full reset -/

/-- A full reset with HOLD high, field by field: every block at the values its rules give (R1 and the resets of
the blocks), in STARTUP with the journal controller in HOLD. The model's own choices in it: the level of
HOST_RESET and the queue stay, and the list of responses and its counts start again
(notes/assumptions/15.md); the counter of a free value is whatever it is (notes/assumptions/10.md). -/
def Obligations.FullResetIntoHold : Prop :=
  ∀ (s : State) (en : Bool) (addr : BitVec 2), ∃ k : Nat, exec (.fullReset true en addr) s = .next
    { mode := .startup
      pins := { hold := true, storeEn := en, addr := addr, hostReset := s.pins.hostReset }
      geom := { memSize := 4194304, spareBase := 0, spareCount := 0 }
      params := { fixedThreshold := 16, failedThreshold := 1, autoRetire := true, retryLimit := 2,
                  sweepInterval := 64, accelThreshold := 0, sweepEnable := true, scrubPoison := true,
                  bgShare := 4, logCorrected := false, alertMask := 0 }
      remap := Vector.replicate 128 none
      host := { recs := Vector.replicate 32 none, followOns := [], requests := [], headWaits := false,
                ladders := Vector.replicate 4 none, era := 0, arrivals := 0, sent := [] }
      locks := { copy := none, sweep := none, ladders := Vector.replicate 4 none }
      hold := []
      port := { tags := Vector.replicate 64 .free, share := 0 }
      health := Vector.replicate 64 none
      retire := []
      copy := { state := .idle, job := none, cursor := 0, data := none, writeKind := none, retry := none,
                cause := none, stepInFlight := false, exhausted := false, request := .absent,
                cancelDone := false }
      sweep := { state := .waiting, position := 0, line := none, pass := 0
                 stats := { linesRead := 0, fixed := 0, failed := 0, skipped := 0, poisonedFound := 0 }
                 interval := 64, accelerated := false, tableFull := false, data := none, retry := none
                 stopPending := false, positionHeld := false, timer := none, request := .absent
                 freeIndex := k }
      journal := { task := .hold, store := if en then .offline else .disabled, live := none, epoch := 0,
                   next := 1, requests := [], snapshot := none }
      events := { records := [], seq := 0, lost := 0, flags := 0 }
      link := { busy := false, response := none, raw := none }
      stats := { hostReads := 0, hostWrites := 0, hostRefusals := 0, holds := 0, finalFailedReads := 0,
                 transientRecoveries := 0 }
      pending := s.pending }

/-- A full reset with HOLD low: replay begins at once, reading the headers; with STORE_EN low it ends at
once and the bridge is ONLINE with the sweep's timer running (R1, R3, R135). That accept then follows the
level HOST_RESET had before is the model's choice (notes/assumptions/15.md). Every other field has the value that
FullResetIntoHold gives it for a full reset with HOLD high. -/
def Obligations.FullResetWithoutHold : Prop :=
  ∀ (s : State) (addr : BitVec 2),
    (∃ t, exec (.fullReset false true addr) s = .next t ∧ t.mode = .startup ∧
      t.journal.task = .replayHeaders none ∧ t.journal.store = .offline ∧ accept t = false) ∧
    (∃ t, exec (.fullReset false false addr) s = .next t ∧ t.mode = .online ∧ t.journal.task = .idle ∧
      t.journal.store = .disabled ∧ t.geom = defaultGeometry ∧ t.sweep.timer = some 64 ∧
      accept t = !s.pins.hostReset) ∧
    (∀ en : Bool, ∃ r : State, exec (.fullReset true en addr) s = .next r ∧
      exec (.fullReset false en addr) s = .next { r with
        mode := if en then .startup else .online
        pins := { r.pins with hold := false }
        journal := { r.journal with task := if en then .replayHeaders none else .idle }
        sweep := { r.sweep with timer := if en then none else some 64 } })

/-- The state after reset meets every invariant stated below. The pin levels in it are the model's choice,
notes/assumptions/1.md. -/
def Obligations.ResetMeetsInvariants : Prop :=
  State.reset.events.Sound ∧ WithinLimits State.reset ∧ BoundOnce State.reset ∧
  settled State.reset = true ∧ sweepLockSound State.reset = true

/-! ### Invariants of the whole part -/

/-- The Event Queue holds at most 32 records with consecutive sequence numbers, whatever happens (R144). -/
def Obligations.EventQueueStaysConsecutive : Prop :=
  ∀ s t : State, s.events.Sound → step s = .next t → t.events.Sound

/-- The capacities and ranges of the tables and parameters hold, whatever happens. -/
def Obligations.LimitsAreKept : Prop :=
  ∀ s t : State, WithinLimits s → step s = .next t → WithinLimits t

/-- Spans and slots stay bound once, whatever happens (R26, R27). -/
def Obligations.BindingsStayUnique : Prop :=
  ∀ s t : State, BoundOnce s → step s = .next t → BoundOnce t

/-- A step that starts with nothing due ends with nothing due: what the rules make follow in a step has
followed in it (R21, R95, R98, R117, R131; that these follow inside the step is the model's reading,
notes/assumptions/5.md). -/
def Obligations.NothingIsLeftDue : Prop :=
  ∀ s t : State, settled s = true → sweepLockSound s = true → step s = .next t →
    settled t = true ∧ sweepLockSound t = true

/-- Once FENCED, the bridge stays FENCED until a full reset (R4). -/
def Obligations.FencedUntilFullReset : Prop :=
  ∀ (c : Instr) (s t : State), (∀ h e a, c ≠ .fullReset h e a) → s.mode = .fenced →
    exec c s = .next t → t.mode = .fenced

/-- An ACTIVE entry stays ACTIVE with its span, slot, copied count, poisoned-line count and origin, until a
full reset (R23); only its journaled flag may change (R24). -/
def Obligations.ActiveBindingsStay : Prop :=
  ∀ (c : Instr) (s t : State) (i : Fin 128) (b : Binding), (∀ h e a, c ≠ .fullReset h e a) →
    s.remap[i] = some b → b.stage = .active → exec c s = .next t →
    ∃ j : Bool, t.remap[i] = some { b with journaled := j }

/-- A command only adds upstream responses; those it sends in FENCED all carry CONTAIN, and those it sends
outside FENCED do not (R5). -/
def Obligations.ContainMarksFollowTheFence : Prop :=
  ∀ (c : Instr) (s t : State), (∀ h e a, c ≠ .fullReset h e a) → exec c s = .next t →
    ∃ new : List UpResponse, t.host.sent = s.host.sent ++ new ∧
      (s.mode = .fenced → ∀ r ∈ new, r.contained = true) ∧
      (t.mode ≠ .fenced → ∀ r ∈ new, r.contained = false)

/-! ### The management link: frames, refusals, the status byte -/

/-- The status byte, bit by bit (R158, Table 11-6), and that it never reads FFh. -/
def Obligations.StatusByteReports : Prop :=
  ∀ s : State,
    (statusByte s).getLsbD 0 = s.link.busy ∧
    (statusByte s).getLsbD 1 = s.link.response.isSome ∧
    ((statusByte s).getLsbD 2 = true ↔
      ∃ k : Fin 8, s.events.flags.getLsbD k = true ∧ s.params.alertMask.getLsbD k = false) ∧
    ((statusByte s).getLsbD 3 = true ↔ s.events.records ≠ []) ∧
    (statusByte s).extractLsb' 4 2 = (match s.mode with | .startup => 0#2 | .online => 1#2 | .fenced => 2#2) ∧
    ((statusByte s).getLsbD 6 = true ↔ s.journal.store = .online) ∧
    ((statusByte s).getLsbD 7 = true ↔ s.journal.task = .hold) ∧
    statusByte s ≠ 0xFF

/-- The part answers at one address, 2Ah plus the ADDR straps of the last full reset: it acknowledges that
address in every state, BUSY or not, and acts on a write transaction to it; of a transaction to another address
it acknowledges nothing, sends nothing and changes nothing (R154). Of a write it acknowledges 27 bytes at most,
and none while BUSY (R155, R156). A read transaction gives the status byte, then the response frame when one is
ready, then FFh; the frame is the code, the length, the payload and a check byte that makes the sum 0 (R157,
Table 11-5). That the row UNKNOWN_FRAME is a whole write transaction to the part's own address, of any bytes, a
good frame among them, is the model's choice (notes/assumptions/14.md and 18.md). -/
def Obligations.ReadTransactionsGiveTheResponse : Prop :=
  (∀ r : Response, byteSum (responseBytes r) = 0 ∧ (responseBytes r).length = r.payload.length + 3 ∧
    (responseBytes r).take 2 = [respByte r.code, BitVec.ofNat 8 r.payload.length] ∧
    ((responseBytes r).drop 2).take r.payload.length = r.payload) ∧
  (∀ (n : Nat) (s : State), readTransaction (n + 1) s =
    statusByte s :: (((s.link.response.map responseBytes).getD []) ++ List.replicate n 0xFF).take n) ∧
  (∀ (addr : BitVec 7) (bytes : List Byte) (n : Nat) (s : State),
    (addr.toNat = 0x2A + s.pins.addr.toNat →
      busAcks addr bytes s = (true, if s.link.busy then 0 else min bytes.length 27) ∧
      busRead addr n s = some (readTransaction n s) ∧
      exec (.unknownFrame bytes) s = .next (busWrite addr bytes s)) ∧
    (addr.toNat ≠ 0x2A + s.pins.addr.toNat →
      busAcks addr bytes s = (false, 0) ∧ busRead addr n s = none ∧ busWrite addr bytes s = s)) ∧
  (∀ (s t : State) (h e : Bool) (a : BitVec 2), exec (.fullReset h e a) s = .next t → t.pins.addr = a)

/-- A frame built by Table 11-5 for a code of Table 11-4 is the command of that code. That the row UNKNOWN_FRAME
given such a frame has the command's own effect is the model's choice (notes/assumptions/14.md). -/
def Obligations.FramesNameTheirCommands : Prop :=
  ∀ p ∈ linkCommands, ∀ (ps : List Byte) (s : State), ps.length ≤ 24 →
    exec (.unknownFrame (frameOf p.1 ps)) s = exec (p.2 ps) s

/-- Write transactions that are no command: nothing for an empty one, else BAD_FRAME, BAD_CHECK or UNKNOWN
in that order, and only the response changes (R155). -/
def Obligations.BadFramesAreAnswered : Prop :=
  ∀ s : State, s.link.busy = false →
    exec (.unknownFrame []) s = .next s ∧
    (∀ bytes : List Byte, bytes ≠ [] →
      (bytes.length < 3 ∨ 24 < (bytes.getD 1 0).toNat ∨ bytes.length ≠ (bytes.getD 1 0).toNat + 3) →
      exec (.unknownFrame bytes) s = .next { s with link := replied .badFrame [] }) ∧
    (∀ bytes : List Byte, 3 ≤ bytes.length → (bytes.getD 1 0).toNat ≤ 24 →
      bytes.length = (bytes.getD 1 0).toNat + 3 →
      (byteSum bytes ≠ 0 → exec (.unknownFrame bytes) s = .next { s with link := replied .badCheck [] }) ∧
      (byteSum bytes = 0 → bytes.getD 0 0 ∉ linkCommands.map Prod.fst →
        exec (.unknownFrame bytes) s = .next { s with link := replied .unknown [] }))

/-- A BUSY link refuses a write transaction at its first byte and discards it: no byte of it is
acknowledged, no response is replaced, no block sees it, even if BUSY has cleared by its end; reads are
served (R156). -/
def Obligations.BusyLinkRefusesWrites : Prop :=
  (∀ (bytes : List Byte) (s : State), exec (.busyWriteRefused bytes) s = .next s) ∧
  (∀ (bytes : List Byte) (s : State), s.link.busy = true →
    acknowledgedNow bytes s = 0 ∧ exec (.unknownFrame bytes) s = .next s ∧
    (readTransaction 1 s).head? = some (statusByte s)) ∧
  (∀ p ∈ linkCommands, ∀ (ps : List Byte) (s : State), s.link.busy = true → exec (p.2 ps) s = .next s)

/-- A command taken outside the modes of Table 11-4 is answered REFUSED_STATE; a command of a wrong parameter
length, in every mode in which Table 11-4 takes the command, is answered BAD_PARAM; neither changes anything
else (R2, R6, R7, R159). -/
def Obligations.RefusedCommandsChangeNothing : Prop :=
  ∀ p ∈ linkCommands, ∀ (ps : List Byte) (s : State), s.link.busy = false → ps.length ≤ 24 →
    ((p.1 ∈ holdCodes ∧ s.journal.task ≠ .hold ∨
      p.1 ∉ holdCodes ++ anyModeCodes ∧ s.mode = .startup ∨
      p.1 ∈ onlineCodes ∧ s.mode = .fenced) →
      exec (p.2 ps) s = .next { s with link := replied .refusedState [] }) ∧
    ((p.1 ∈ holdCodes → s.journal.task = .hold) → (p.1 ∉ holdCodes ++ anyModeCodes → s.mode ≠ .startup) →
      (p.1 ∈ onlineCodes → s.mode ≠ .fenced) → ps.length ∉ lengthsOf p.1 →
      exec (p.2 ps) s = .next { s with link := replied .badParam [] })

/-! ### The management link: reading -/

/-- READ_REMAP, READ_HEALTH and FIND_SPAN answer from the tables as they stand, byte by byte as Table 11-7 lays
out, and change nothing (R31, R32, R88, R93, R162, R164). -/
def Obligations.TableReadsAnswer : Prop :=
  ∀ s : State, s.link.busy = false → s.mode ≠ .startup →
    let stages : List Stage := [.copying, .committing, .aborting, .active]
    let origins : List RetireOrigin := [.auto, .command, .resumed, .restored]
    let entry (x : Option Binding) : List Byte := match x with
      | none => [0, 0xFF, 0xFF, 0xFF, 0xFF, 0, 0]
      | some b =>
        (0#1 ++ BitVec.ofBool b.journaled ++ BitVec.ofNat 3 (origins.idxOf b.origin)
          ++ BitVec.ofNat 3 (stages.idxOf b.stage + 1) : BitVec 8) :: leBytes 3 b.span
          ++ [BitVec.ofNat 8 b.slot, BitVec.ofNat 8 b.copied, BitVec.ofNat 8 b.poisoned]
    let place (x : Option HealthEntry) : List Byte := match x with
      | none => [0, 0xFF, 0xFF, 0xFF, 0, 0, 0, 0, 0, 0]
      | some e =>
        (0#5 ++ BitVec.ofBool e.reported ++ BitVec.ofBool e.spare ++ 1#1 : BitVec 8) :: leBytes 3 e.span
          ++ [BitVec.ofNat 8 e.fixed, BitVec.ofNat 8 e.failed] ++ leBytes 2 e.firstSeen.toNat
          ++ leBytes 2 e.lastSeen.toNat
    let index (x : Option Nat) : Byte := match x with
      | none => 0xFF
      | some n => BitVec.ofNat 8 n
    (∀ i : Fin 128, exec (.readRemap [BitVec.ofNat 8 i.val]) s =
      .next { s with link := replied .ok (entry s.remap[i]) }) ∧
    (∀ i : Byte, 128 ≤ i.toNat → exec (.readRemap [i]) s = .next { s with link := replied .badParam [] }) ∧
    (∀ i : Fin 64, exec (.readHealth [BitVec.ofNat 8 i.val]) s =
      .next { s with link := replied .ok (place s.health[i]) }) ∧
    (∀ i : Byte, 64 ≤ i.toNat → exec (.readHealth [i]) s = .next { s with link := replied .badParam [] }) ∧
    (∀ (n : Nat) (e : Option (Fin 128)) (h : Option (Fin 64)) (q : Byte), n ≤ 4194303 →
      ((e = none ∧ ∀ i : Fin 128, ∀ b ∈ s.remap[i], b.span ≠ n) ∨
        ∃ i : Fin 128, e = some i ∧ (∃ b ∈ s.remap[i], b.span = n) ∧
          ∀ k : Fin 128, ∀ c ∈ s.remap[k], c.span = n → k = i) →
      ((h = none ∧ ∀ i : Fin 64, ∀ f ∈ s.health[i], f.span ≠ n) ∨
        ∃ i : Fin 64, h = some i ∧ (∃ f ∈ s.health[i], f.span = n) ∧
          ∀ k : Fin 64, ∀ g ∈ s.health[k], g.span = n → k = i) →
      ((q = 0 ∧ ∀ x ∈ s.retire, x.span ≠ n) ∨
        ∃ (pre : List Queued) (x : Queued) (post : List Queued), s.retire = pre ++ x :: post ∧ x.span = n ∧
          (∀ y ∈ pre, y.span ≠ n) ∧ pre.length < 8 ∧
          q = (0#2 ++ BitVec.ofNat 2 (origins.idxOf x.origin) ++ BitVec.ofNat 4 (pre.length + 1) : BitVec 8)) →
      exec (.findSpan (leBytes 3 n)) s = .next { s with link := replied .ok (
        index (e.map Fin.val) :: entry (e.bind (fun i => s.remap[i])) ++ [q]
          ++ index (h.map Fin.val) :: place (h.bind (fun i => s.health[i]))) }) ∧
    (∀ n : Nat, 4194303 < n → n < 16777216 →
      exec (.findSpan (leBytes 3 n)) s = .next { s with link := replied .badParam [] })

/-- GET_PARAM in every mode, and READ_STATS, answer byte by byte as Tables 11-2 and 11-7 lay out, each number least
significant byte first, and change nothing (R113, R160, R163, R164). -/
def Obligations.ParamAndStatsReadsAnswer : Prop :=
  ∀ s : State, s.link.busy = false →
    let p := s.params
    let onOff (b : Bool) : Nat := if b then 1 else 0
    let states : List SweepState := [.stopped, .waiting, .reading, .retrying, .writingBack]
    (∀ n : Nat, leBytes 2 n = [BitVec.ofNat 8 n, BitVec.ofNat 8 (n / 256)] ∧
      leBytes 3 n = leBytes 2 n ++ [BitVec.ofNat 8 (n / 65536)] ∧
      leBytes 4 n = leBytes 3 n ++ [BitVec.ofNat 8 (n / 16777216)]) ∧
    (∀ x ∈ ([(0x01, p.fixedThreshold), (0x02, p.failedThreshold), (0x03, onOff p.autoRetire),
        (0x04, p.retryLimit), (0x05, p.sweepInterval), (0x06, p.accelThreshold), (0x07, onOff p.sweepEnable),
        (0x08, onOff p.scrubPoison), (0x09, p.bgShare), (0x0A, onOff p.logCorrected),
        (0x0B, p.alertMask.toNat)] : List (Byte × Nat)),
      exec (.getParam [x.1]) s = .next { s with link := replied .ok (x.1 :: leBytes 2 x.2) }) ∧
    (exec (.getParam [0x20]) s = .next { s with link := replied .ok (0x20 ::
      leBytes 3 s.geom.memSize ++ leBytes 3 s.geom.spareBase ++ [BitVec.ofNat 8 s.geom.spareCount]) }) ∧
    (∀ id : Byte, id = 0 ∨ 11 < id.toNat ∧ id ≠ 0x20 →
      exec (.getParam [id]) s = .next { s with link := replied .badParam [] }) ∧
    (s.mode ≠ .startup →
      exec (.readStats [0]) s = .next { s with link := replied .ok (
        leBytes 4 s.stats.hostReads.toNat ++ leBytes 4 s.stats.hostWrites.toNat
          ++ leBytes 4 s.stats.hostRefusals.toNat ++ leBytes 4 s.stats.holds.toNat
          ++ leBytes 4 s.stats.finalFailedReads.toNat ++ leBytes 4 s.stats.transientRecoveries.toNat) } ∧
      (s.sweep.position < 268435456 → ∀ w : BitVec 32,
        w = BitVec.ofBool s.sweep.accelerated ++ BitVec.ofNat 3 (states.idxOf s.sweep.state)
          ++ BitVec.ofNat 28 s.sweep.position →
        exec (.readStats [1]) s = .next { s with link := replied .ok (
          leBytes 4 w.toNat ++ leBytes 2 s.sweep.pass.toNat ++ leBytes 2 s.sweep.interval
            ++ leBytes 4 s.sweep.stats.linesRead.toNat ++ leBytes 4 s.sweep.stats.fixed.toNat
            ++ leBytes 4 s.sweep.stats.failed.toNat ++ leBytes 4 s.sweep.stats.skipped.toNat
            ++ leBytes 4 s.sweep.stats.poisonedFound.toNat) }) ∧
      (∀ page : Byte, 1 < page.toNat →
        exec (.readStats [page]) s = .next { s with link := replied .badParam [] }))

/-- READ_EVENTS answers the number held, the lost count and the oldest one or two records, in every mode,
and changes nothing; another count is BAD_PARAM; an event offered between two reads stands behind what the
first one read (R148). A record has the 12 bytes of Table 11-8, with the kind codes of Table 11-9 and all ones for
an absent field (R164). -/
def Obligations.EventsAreRead : Prop :=
  ∀ (s : State) (n : Byte), s.link.busy = false →
    let kinds : List EventKind := [.corrected, .transient, .uncorrectable, .poisonWritten, .lineCarriedPoison,
      .threshold, .retireQueued, .retireDeferred, .retireStarted, .retireDone, .retireCancelled, .copyResumed,
      .spareExhausted, .spareDegraded, .healthTableFull, .storeFault, .journalCompacted, .recordTorn,
      .replayConflict, .memoryError, .fenced, .tagQuarantined, .hostProtocol, .hostReset, .sweepPassDone, .lost]
    let sources : List Source := [.none, .host, .copy, .sweep, .journal, .link, .port]
    let field (w : Nat) (x : Option Nat) : List Byte := match x with
      | none => List.replicate w 0xFF
      | some v => leBytes w v
    let recordLayout (r : EventRecord) : List Byte :=
      leBytes 2 r.seq.toNat
        ++ [(BitVec.ofNat 3 (sources.idxOf r.event.source)
              ++ BitVec.ofNat 5 (kinds.idxOf r.event.kind + 1) : BitVec 8)]
        ++ field 3 r.event.span ++ field 1 r.event.offset ++ field 1 r.event.slot ++ field 2 r.event.value
        ++ leBytes 2 r.pass.toNat
    ((n = 1 ∨ n = 2) → exec (.readEvents [n]) s = .next { s with link := replied .ok (
      BitVec.ofNat 8 s.events.records.length :: BitVec.ofNat 8 s.events.lost
        :: (s.events.records.take n.toNat).flatMap recordLayout) }) ∧
    (n ≠ 1 → n ≠ 2 → exec (.readEvents [n]) s = .next { s with link := replied .badParam [] }) ∧
    (∀ e : Event, s.events.records <+: (offer e s).events.records)

/-! ### The management link: events, alerts, parameters, statistics -/

/-- DROP_EVENTS removes the oldest records, min(n, held) of them, in every mode, answers how many, and
leaves the rest, the counter and the lost count (R149); EVENTS clears when none is left. With an event
offered in the same moment, first: it is stored or lost by the queue as it was; after: it finds the room. -/
def Obligations.EventsAreDropped : Prop :=
  ∀ (s : State) (n : Byte), s.link.busy = false →
    (∃ t, exec (.dropEvents [n]) s = .next t ∧
      t = { s with
        events := { s.events with records := s.events.records.drop n.toNat }
        link := replied .ok [BitVec.ofNat 8 (min n.toNat s.events.records.length)] } ∧
      ((statusByte t).getLsbD 3 = true ↔ n.toNat < s.events.records.length) ∧
      (∀ e : Event, 0 < n.toNat → s.events.records.length ≤ 32 → 0 < s.events.records.length →
        ∃ r ∈ (offer e t).events.records, r.seq = s.events.seq)) ∧
    (∀ e : Event, s.events.records <+: (offer e s).events.records ∧
      (s.events.records.length = 32 → (offer e s).events.records = s.events.records) ∧
      (s.events.records.length < 32 → s.events.lost = 0 → ∃ r : EventRecord, r.event = e ∧
        (offer e s).events.records = s.events.records ++ [r]))

/-- READ_ALERTS answers the flags and the mask in every mode and changes nothing; ACK_ALERTS clears the
named flags, in every mode, and nothing else; dropping records clears no flag; a flag set after its
acknowledgement reads set, and one set before it reads clear (R152). -/
def Obligations.AlertsAreReadAndAcknowledged : Prop :=
  ∀ (s : State) (bits : Byte), s.link.busy = false →
    exec (.readAlerts []) s = .next { s with link := replied .ok [s.events.flags, s.params.alertMask] } ∧
    (∃ t, exec (.ackAlerts [bits]) s = .next t ∧
      t = { s with events := { s.events with flags := s.events.flags &&& ~~~bits }, link := replied .ok [] } ∧
      (∀ k : Fin 8, t.events.flags.getLsbD k = (s.events.flags.getLsbD k && !bits.getLsbD k)) ∧
      (∀ e : Event, (offer e t).events.flags.getLsbD (categoryBit e.kind) = true)) ∧
    (∀ e : Event, bits.getLsbD (categoryBit e.kind) = true → ∃ t,
      exec (.ackAlerts [bits]) (offer e s) = .next t ∧ t.events.flags.getLsbD (categoryBit e.kind) = false) ∧
    (∀ n : Byte, ∃ t, exec (.dropEvents [n]) s = .next t ∧ t.events.flags = s.events.flags)

/-- What an offered event does to the queue: stored with the next number when there is room and no loss to
report; lost when the queue is full; behind a LOST record when a loss is due, or lost for the LOST record
that takes the last place. Its category's flag is set in every case, the QUEUE flag with the first loss, and no
other flag changes (R145, R146, R147, R151). -/
def Obligations.OfferedEventsAreStoredOrLost : Prop :=
  ∀ (e : Event) (s : State),
    offer e s = { s with events := (offer e s).events } ∧
    (offer e s).events.flags.getLsbD (categoryBit e.kind) = true ∧
    (∀ k : Fin 8, s.events.flags.getLsbD k = true → (offer e s).events.flags.getLsbD k = true) ∧
    (∀ k : Fin 8, k.val ≠ categoryBit e.kind →
      k.val ≠ 7 ∨ s.events.records.length < 31 ∨ s.events.records.length = 31 ∧ s.events.lost = 0 ∨
        32 ≤ s.events.records.length ∧ 0 < s.events.lost →
      (offer e s).events.flags.getLsbD k = s.events.flags.getLsbD k) ∧
    (s.events.records.length < 32 → s.events.lost = 0 →
      (offer e s).events.records = s.events.records ++ [⟨s.events.seq, e, s.sweep.pass⟩] ∧
      (offer e s).events.seq = s.events.seq + 1 ∧ (offer e s).events.lost = 0) ∧
    (32 ≤ s.events.records.length →
      (offer e s).events.records = s.events.records ∧ (offer e s).events.seq = s.events.seq ∧
      (offer e s).events.lost = min 255 (s.events.lost + 1) ∧
      (s.events.lost = 0 → (offer e s).events.flags.getLsbD 7 = true)) ∧
    (s.events.records.length < 31 → 0 < s.events.lost →
      (offer e s).events.records = s.events.records ++
        [⟨s.events.seq, lostEvent s.events.lost, s.sweep.pass⟩, ⟨s.events.seq + 1, e, s.sweep.pass⟩] ∧
      (offer e s).events.seq = s.events.seq + 2 ∧ (offer e s).events.lost = 0) ∧
    (s.events.records.length = 31 → 0 < s.events.lost →
      (offer e s).events.records = s.events.records ++
        [⟨s.events.seq, lostEvent s.events.lost, s.sweep.pass⟩] ∧
      (offer e s).events.seq = s.events.seq + 1 ∧ (offer e s).events.lost = 1 ∧
      (offer e s).events.flags.getLsbD 7 = true)

/-- SET_PARAM sets the parameter it names when the value is in range, answered OK, and nothing else but
what R122 gives the sweep interval; other identifiers and values are BAD_PARAM. SET_ALERT_MASK has the
effect of SET_PARAM with 0Bh (R153, R160). Sweep enable is in SweepCommandsActByState. -/
def Obligations.ParametersAreSet : Prop :=
  ∀ (s : State) (v : Nat), s.link.busy = false → s.mode ≠ .startup → v < 65536 →
    (∀ id : Byte, paramInRange id.toNat v = false →
      exec (.setParam (id :: leBytes 2 v)) s = .next { s with link := replied .badParam [] }) ∧
    (1 ≤ v → v ≤ 255 → exec (.setParam (1 :: leBytes 2 v)) s =
      .next { s with params := { s.params with fixedThreshold := v }, link := replied .ok [] }) ∧
    (1 ≤ v → v ≤ 15 → exec (.setParam (2 :: leBytes 2 v)) s =
      .next { s with params := { s.params with failedThreshold := v }, link := replied .ok [] }) ∧
    (v ≤ 1 → exec (.setParam (3 :: leBytes 2 v)) s =
      .next { s with params := { s.params with autoRetire := v == 1 }, link := replied .ok [] }) ∧
    (v ≤ 3 → exec (.setParam (4 :: leBytes 2 v)) s =
      .next { s with params := { s.params with retryLimit := v }, link := replied .ok [] }) ∧
    (1 ≤ v → exec (.setParam (5 :: leBytes 2 v)) s =
      .next { s with
        params := { s.params with sweepInterval := v }
        sweep := { s.sweep with interval := if s.sweep.accelerated then max 1 (v / 2) else v }
        link := replied .ok [] }) ∧
    (exec (.setParam (6 :: leBytes 2 v)) s =
      .next { s with params := { s.params with accelThreshold := v }, link := replied .ok [] }) ∧
    (v ≤ 1 → exec (.setParam (8 :: leBytes 2 v)) s =
      .next { s with params := { s.params with scrubPoison := v == 1 }, link := replied .ok [] }) ∧
    (1 ≤ v → v ≤ 16 → exec (.setParam (9 :: leBytes 2 v)) s =
      .next { s with params := { s.params with bgShare := v }, link := replied .ok [] }) ∧
    (v ≤ 1 → exec (.setParam (10 :: leBytes 2 v)) s =
      .next { s with params := { s.params with logCorrected := v == 1 }, link := replied .ok [] }) ∧
    (v ≤ 255 → exec (.setParam (11 :: leBytes 2 v)) s =
        .next { s with params := { s.params with alertMask := BitVec.ofNat 8 v }, link := replied .ok [] } ∧
      exec (.setAlertMask [BitVec.ofNat 8 v]) s = exec (.setParam (11 :: leBytes 2 v)) s)

/-- CLEAR_HEALTH empties every place, CLEAR_STATS sets the six counters to 0, and neither changes anything
else (R87, R163). -/
def Obligations.HealthAndStatsAreCleared : Prop :=
  ∀ s : State, s.link.busy = false → s.mode ≠ .startup →
    (∃ h : Health, (∀ i : Fin 64, h[i] = none) ∧
      exec (.clearHealth []) s = .next { s with health := h, link := replied .ok [] }) ∧
    exec (.clearStats []) s = .next { s with
      stats := { hostReads := 0, hostWrites := 0, hostRefusals := 0, holds := 0, finalFailedReads := 0,
                 transientRecoveries := 0 }
      link := replied .ok [] }

/-- SWEEP_STOP and SWEEP_START by the sweep's state (R123, Table 8-2), and the parameter sweep enable with
the same effect. SWEEP_RESTART sets the position to the first line outside the pool and clears the five
pass statistics; with a line in progress the position is held there; all else stays (R124). Table 8-2 is for
ONLINE: that in FENCED a stop with a line in progress sets stop pending, and sweep enable set on changes no
field of the sweep, is the model's reading (notes/assumptions/16.md). -/
def Obligations.SweepCommandsActByState : Prop :=
  ∀ s : State, s.link.busy = false →
    (s.mode ≠ .startup →
      (s.sweep.state = .stopped → exec (.sweepStop []) s =
        .next { s with params := { s.params with sweepEnable := false }, link := replied .ok [] }) ∧
      (s.sweep.state = .waiting → exec (.sweepStop []) s =
        .next { s with
          params := { s.params with sweepEnable := false }
          sweep := { s.sweep with state := .stopped, timer := none, stopPending := false }
          link := replied .ok [] }) ∧
      (lineInProgress s.sweep = true → exec (.sweepStop []) s =
        .next { s with
          params := { s.params with sweepEnable := false }
          sweep := { s.sweep with stopPending := true }, link := replied .ok [] }) ∧
      exec (.setParam [7, 0, 0]) s = exec (.sweepStop []) s) ∧
    (s.mode = .online →
      (s.sweep.state = .stopped → exec (.sweepStart []) s =
        .next { s with
          params := { s.params with sweepEnable := true }
          sweep := { s.sweep with state := .waiting, timer := some s.sweep.interval }
          link := replied .ok [] }) ∧
      (s.sweep.state = .waiting → exec (.sweepStart []) s =
        .next { s with params := { s.params with sweepEnable := true }, link := replied .ok [] }) ∧
      (lineInProgress s.sweep = true → exec (.sweepStart []) s =
        .next { s with
          params := { s.params with sweepEnable := true }
          sweep := { s.sweep with stopPending := false }, link := replied .ok [] }) ∧
      exec (.setParam [7, 1, 0]) s = exec (.sweepStart []) s) ∧
    (s.mode = .fenced → exec (.setParam [7, 1, 0]) s =
      .next { s with params := { s.params with sweepEnable := true }, link := replied .ok [] }) ∧
    (s.mode ≠ .startup → s.geom.valid = true → ∃ p, exec (.sweepRestart []) s = .next { s with
        sweep := { s.sweep with
          position := p
          stats := { linesRead := 0, fixed := 0, failed := 0, skipped := 0, poisonedFound := 0 }
          positionHeld := s.sweep.positionHeld || lineInProgress s.sweep }
        link := replied .ok [] } ∧
      (s.geom.inPool 0 = false → p = 0) ∧
      (s.geom.inPool 0 = true → s.geom.spareCount < s.geom.memSize → p = s.geom.spareCount * 64) ∧
      (s.geom.spareCount = s.geom.memSize → p = 0))

/-! ### Retirement and geometry commands -/

/-- RETIRE_SPAN by the checks of R90 in their order (Table 6-4), and the span taken at the tail with its
RETIRE_QUEUED event, answered OK (R91). -/
def Obligations.RetireSpanIsDecided : Prop :=
  ∀ (s : State) (n : Nat), s.link.busy = false → s.mode = .online → n < 16777216 →
    (4194303 < n ∨ s.geom.usable n = false →
      exec (.retireSpan (leBytes 3 n)) s = .next { s with link := replied .badParam [] }) ∧
    (n ≤ 4194303 → s.geom.usable n = true →
      ((∃ q ∈ s.retire, q.span = n) ∨ (∃ i : Fin 128, ∃ b ∈ s.remap[i], b.span = n) →
        exec (.retireSpan (leBytes 3 n)) s = .next { s with link := replied .duplicate [] }) ∧
      ((∀ q ∈ s.retire, q.span ≠ n) → (∀ i : Fin 128, ∀ b ∈ s.remap[i], b.span ≠ n) →
        (8 ≤ s.retire.length →
          exec (.retireSpan (leBytes 3 n)) s = .next { s with link := replied .queueFull [] }) ∧
        (s.retire.length < 8 → ∀ u : State,
          u = { offer (spanEvent .retireQueued .link n none (some (s.retire.length + 1))) s with
            retire := s.retire ++ [⟨n, .command⟩], link := replied .ok [] } →
          settled u = true → exec (.retireSpan (leBytes 3 n)) s = .next u)))

/-- CANCEL_RETIRE by where the span stands (R92, R106, Table 7-4): a queued span leaves the queue with its
event; a copy becomes ABORTING with cause COMMAND; the other answers change nothing. A request of the copy
outstanding, or its BEGIN record, is the step in flight, with the slot write kind gone (Table 7-1); a copy that
waits for a quiet line has none, so COPY leaves its line and the CANCEL record is requested, or skipped, at
once (R108, R109); that its line data and retry fields are clear from then on is the model's choice
(notes/assumptions/26.md). -/
def Obligations.CancelRetireByPlace : Prop :=
  ∀ (s : State) (n : Nat), s.link.busy = false → s.mode ≠ .startup → n < 16777216 →
    (4194303 < n → exec (.cancelRetire (leBytes 3 n)) s = .next { s with link := replied .badParam [] }) ∧
    (n ≤ 4194303 → (∃ q ∈ s.retire, q.span = n) → exec (.cancelRetire (leBytes 3 n)) s =
      .next { offer (spanEvent .retireCancelled .link n none (some 1)) s with
        retire := s.retire.filter (fun q => q.span != n), link := replied .ok [] }) ∧
    (n ≤ 4194303 → (∀ q ∈ s.retire, q.span ≠ n) →
      ((∀ i : Fin 128, ∀ b ∈ s.remap[i], b.span ≠ n) →
        exec (.cancelRetire (leBytes 3 n)) s = .next { s with link := replied .notFound [] }) ∧
      (∀ (i : Fin 128) (b : Binding), s.remap[i] = some b → b.span = n → BoundOnce s →
        (b.stage = .active →
          exec (.cancelRetire (leBytes 3 n)) s = .next { s with link := replied .refusedState [] }) ∧
        (b.stage = .committing →
          exec (.cancelRetire (leBytes 3 n)) s = .next { s with link := replied .tooLate [] }) ∧
        (b.stage = .aborting →
          exec (.cancelRetire (leBytes 3 n)) s = .next { s with link := replied .ok [] }) ∧
        (b.stage = .copying → s.copy.request ≠ .absent ∨ s.copy.state = .beginning → ∀ u : State,
          u = { s with
            remap := s.remap.set i (some { b with stage := .aborting })
            copy := { s.copy with
              state := .aborting, writeKind := none, cause := some .command, stepInFlight := true }
            link := replied .ok [] } →
          settled u = true → exec (.cancelRetire (leBytes 3 n)) s = .next u) ∧
        (b.stage = .copying → s.copy.state = .lineRead → s.copy.request = .absent →
          s.copy.job = some ⟨i, n, b.slot⟩ → ∀ left : State,
          left = removeHolder .copy { s with
            remap := s.remap.set i (some { b with stage := .aborting })
            copy := { s.copy with
              state := .aborting, data := none, writeKind := none, retry := none, cause := some .command
              stepInFlight := false } } →
          (s.journal.TakesRecords → ∀ u : State,
            u = { left with
              journal := s.journal.asked ⟨.cancelRec, n, b.slot, 0⟩, link := replied .ok [] } →
            settled u = true → exec (.cancelRetire (leBytes 3 n)) s = .next u) ∧
          (s.journal.store ≠ .online → ∀ u : State,
            u = { left with copy := { left.copy with cancelDone := true }, link := replied .ok [] } →
            settled u = true → exec (.cancelRetire (leBytes 3 n)) s = .next u))))

/-- SET_GEOMETRY (R142): invalid values are BAD_PARAM, tables in use REFUSED_IN_USE; otherwise the geometry
is replaced, the Health Table cleared if it differs, the sweep's position set, and the command answered at
once with the store not ONLINE, or left waiting for a compaction with the store ONLINE. -/
def Obligations.GeometryIsSet : Prop :=
  ∀ (s : State) (ps : List Byte), s.link.busy = false → s.mode ≠ .startup → ps.length = 7 →
    let g := geometryOf ps
    let u : State := { s with
      geom := g
      health := if s.geom = g then s.health else emptyHealth
      sweep := { s.sweep with
        position := firstPosition g, positionHeld := s.sweep.positionHeld || lineInProgress s.sweep } }
    (g.valid = false → exec (.setGeometry ps) s = .next { s with link := replied .badParam [] }) ∧
    (g.valid = true →
      ((∃ i : Fin 128, s.remap[i] ≠ none) ∨ s.retire ≠ [] ∨ s.copy.state ≠ .idle →
        exec (.setGeometry ps) s = .next { s with link := replied .refusedInUse [] }) ∧
      ((∀ i : Fin 128, s.remap[i] = none) → s.retire = [] → s.copy.state = .idle →
        (s.journal.store ≠ .online →
          exec (.setGeometry ps) s = .next { u with link := replied .ok [] }) ∧
        (s.journal.store = .online → s.journal.task = .idle → s.journal.requests = [] → ∀ v : State,
          v = { u with
            journal := { s.journal with
              task := .compact .geometry (spareHalf s.journal) .erasing
              requests := [.geometry], snapshot := some [] }
            link := waiting } →
          settled v = true → exec (.setGeometry ps) s = .next v)))

/-! ### Start-up and store commands -/

/-- START leaves HOLD for replay, answered OK; CLEAN_START leaves HOLD for cleaning, unanswered. With the
store DISABLED either ends start-up at once (R1, R3, R135, R138). -/
def Obligations.StartsLeaveHold : Prop :=
  ∀ s : State, s.link.busy = false → s.journal.task = .hold → s.mode = .startup →
    (s.journal.store ≠ .disabled → ∀ u : State,
      u = { s with journal := { s.journal with task := .replayHeaders none }, link := replied .ok [] } →
      settled u = true → exec (.start []) s = .next u) ∧
    (s.journal.store ≠ .disabled →
      exec (.cleanStart []) s = .next { s with
        journal := { s.journal with task := .cleanHeaders none }, link := waiting }) ∧
    (s.journal.store = .disabled → s.sweep.state = .waiting → ∀ u : State,
      u = { s with
        mode := .online
        journal := { s.journal with task := .idle }
        sweep := { s.sweep with timer := some s.sweep.interval }, link := replied .ok [] } →
      settled u = true → exec (.start []) s = .next u ∧ exec (.cleanStart []) s = .next u)

/-- STORE_DETACH and STORE_ATTACH by the store state (R140, R141): the refusals, an OFFLINE store detached
at once, an ONLINE one detached at once by an IDLE controller or waiting behind its work, and an attach
begun. -/
def Obligations.StoreIsDetachedAndAttached : Prop :=
  ∀ s : State, s.link.busy = false → s.mode ≠ .startup →
    (s.journal.store = .disabled →
      exec (.storeDetach []) s = .next { s with link := replied .refusedState [] }) ∧
    (s.journal.store = .offline →
      exec (.storeDetach []) s = .next { s with link := replied .ok [] }) ∧
    (s.journal.store = .online → s.journal.task = .idle → s.journal.requests = [] → ∀ u : State,
      u = { s with
        journal := { s.journal with store := .offline }
        remap := journalFlags false s.remap, link := replied .ok [] } →
      settled u = true → exec (.storeDetach []) s = .next u) ∧
    (s.journal.store = .online → s.journal.task ≠ .idle → ∀ u : State,
      u = { s with
        journal := { s.journal with requests := s.journal.requests ++ [.detach] }, link := waiting } →
      settled u = true → exec (.storeDetach []) s = .next u) ∧
    (s.journal.task = .raw →
      exec (.storeAttach []) s = .next { s with link := replied .sessionOpen [] }) ∧
    (s.journal.task ≠ .raw → s.journal.store ≠ .offline →
      exec (.storeAttach []) s = .next { s with link := replied .refusedState [] }) ∧
    (s.journal.store = .offline → s.journal.task = .idle → s.journal.requests = [] → ∀ u : State,
      u = { s with
        journal := { s.journal with task := .attachReady, requests := [.attach] }, link := waiting } →
      settled u = true → exec (.storeAttach []) s = .next u)

/-- RAW_SHIFT by its checks in their order, and its bytes handed to the link; RAW_SHIFT_DONE answers OK with
the sampled bytes, and CLOSE ends the session (R143). -/
def Obligations.RawSessionsShiftBytes : Prop :=
  ∀ (s : State) (flags : Byte) (bytes : List Byte),
    (s.link.busy = false → s.mode ≠ .startup → bytes.length ≤ 16 →
      (s.journal.store ≠ .offline →
        exec (.rawShift (flags :: bytes)) s = .next { s with link := replied .refusedState [] }) ∧
      (s.journal.store = .offline → flags.getLsbD 0 = true → s.journal.task = .raw →
        exec (.rawShift (flags :: bytes)) s = .next { s with link := replied .sessionOpen [] }) ∧
      (s.journal.store = .offline → flags.getLsbD 0 = false → s.journal.task ≠ .raw →
        exec (.rawShift (flags :: bytes)) s = .next { s with link := replied .noSession [] }) ∧
      (s.journal.store = .offline → (flags.getLsbD 0 = true ↔ s.journal.task ≠ .raw) → bytes ≠ [] →
        exec (.rawShift (flags :: bytes)) s = .next { s with
          journal := { s.journal with task := .raw }
          link := { busy := true, response := none, raw := some ⟨bytes, flags.getLsbD 1⟩ } })) ∧
    (∀ (r : RawShift) (sampled : List Byte), s.link.raw = some r → sampled.length = r.bytes.length →
      ∀ u : State,
        u = { s with
          journal := { s.journal with task := if r.close then .idle else s.journal.task }
          link := replied .ok sampled } →
        settled u = true → exec (.rawShiftDone sampled) s = .next u)

/-! ### The host line port -/

/-- Accept is given unless one of the four causes of R36 holds, and while it is withdrawn no request is
taken. -/
def Obligations.AcceptHasFourCauses : Prop :=
  ∀ s : State,
    (accept s = false ↔ s.mode = .startup ∨ s.pins.hostReset = true ∨ 8 ≤ s.hold.length ∨
      32 ≤ s.host.requests.length) ∧
    (accept s = false → ∀ (tag : HostTag) (line : HostLine) (d : LineData) (m : ByteMask),
      exec (.lineRead tag line) s = .next s ∧ exec (.lineWrite tag line d m) s = .next s)

/-- A request that passes R37 and R38 and need not be held joins the tail of the host issue queue in its
tag's record, and is counted by its kind (R39). -/
def Obligations.HostRequestsAreQueued : Prop :=
  ∀ (s : State) (tag : HostTag) (line : HostLine), accept s = true → s.host.recs[tag] = none →
    s.geom.usable (line.toNat / 64) = true →
    (∀ t ∈ s.hold, ∀ r ∈ s.host.recs[t], r.line ≠ line) →
    exec (.lineRead tag line) s = .next { s with
      host := { s.host with
        recs := s.host.recs.set tag (some ⟨.read, line, .queued, none, none, none, s.host.arrivals⟩)
        requests := s.host.requests ++ [tag], arrivals := s.host.arrivals + 1 }
      stats := { s.stats with hostReads := s.stats.hostReads + 1 } } ∧
    (∀ (d : LineData) (m : ByteMask), m ≠ 0 →
      s.locks.lockedAt (resolve s.geom s.remap true line) = false →
      exec (.lineWrite tag line d m) s = .next { s with
        host := { s.host with
          recs := s.host.recs.set tag (some ⟨.write d m, line, .queued, none, none, none, s.host.arrivals⟩)
          requests := s.host.requests ++ [tag], arrivals := s.host.arrivals + 1 }
        stats := { s.stats with hostWrites := s.stats.hostWrites + 1 } })

/-- A request out of range or in the pool is answered REFUSED at once, whatever its mask, and counted in
host refusals; a write with no mask entry set is answered DONE at once and counted (R13, R38); both carry
CONTAIN in FENCED (R5). -/
def Obligations.HostRequestsAreAnsweredAtOnce : Prop :=
  ∀ (s : State) (tag : HostTag) (line : HostLine) (d : LineData), accept s = true →
    s.host.recs[tag] = none →
    ((s.geom.memSize * 64 ≤ line.toNat ∨ s.geom.inPool (line.toNat / 64) = true) →
      (exec (.lineRead tag line) s = .next { s with
        host := { s.host with
          sent := s.host.sent ++ [.readData tag .refused zeroLine (s.mode == .fenced)] }
        stats := { s.stats with hostRefusals := s.stats.hostRefusals + 1 } }) ∧
      (∀ m : ByteMask, exec (.lineWrite tag line d m) s = .next { s with
        host := { s.host with sent := s.host.sent ++ [.writeDone tag .refused (s.mode == .fenced)] }
        stats := { s.stats with hostRefusals := s.stats.hostRefusals + 1 } })) ∧
    (s.geom.usable (line.toNat / 64) = true → exec (.lineWrite tag line d 0) s = .next { s with
      host := { s.host with sent := s.host.sent ++ [.writeDone tag .done (s.mode == .fenced)] }
      stats := { s.stats with hostWrites := s.stats.hostWrites + 1 } })

/-- A request is held at take behind a held request for its host line, and a write also when its location
is locked: it joins the tail of the Hold List, in its record with place HELD, and holds rises (R39, R58,
R63). A read of a locked line is not held on that account. -/
def Obligations.HostRequestsAreHeld : Prop :=
  ∀ (s : State) (tag : HostTag) (line : HostLine), accept s = true → s.host.recs[tag] = none →
    s.geom.usable (line.toNat / 64) = true →
    ((∃ t ∈ s.hold, ∃ r ∈ s.host.recs[t], r.line = line) →
      exec (.lineRead tag line) s = .next { s with
        host := { s.host with
          recs := s.host.recs.set tag (some ⟨.read, line, .held, none, none, none, s.host.arrivals⟩)
          arrivals := s.host.arrivals + 1 }
        hold := s.hold ++ [tag]
        stats := { s.stats with hostReads := s.stats.hostReads + 1, holds := s.stats.holds + 1 } }) ∧
    (∀ (d : LineData) (m : ByteMask), m ≠ 0 →
      ((∃ t ∈ s.hold, ∃ r ∈ s.host.recs[t], r.line = line) ∨
        s.locks.lockedAt (resolve s.geom s.remap true line) = true) →
      exec (.lineWrite tag line d m) s = .next { s with
        host := { s.host with
          recs := s.host.recs.set tag (some ⟨.write d m, line, .held, none, none, none, s.host.arrivals⟩)
          arrivals := s.host.arrivals + 1 }
        hold := s.hold ++ [tag]
        stats := { s.stats with hostWrites := s.stats.hostWrites + 1, holds := s.stats.holds + 1 } })

/-- A request whose tag is outstanding is discarded: only the HOST_PROTOCOL event, with the tag as its
value, comes of it (R37). -/
def Obligations.DuplicateTagsAreDiscarded : Prop :=
  ∀ (s : State) (tag : HostTag) (line : HostLine) (d : LineData) (m : ByteMask), accept s = true →
    s.host.recs[tag] ≠ none → ∀ u : State,
    u = offer { kind := .hostProtocol, source := .host, span := none, offset := none, slot := none,
                value := some tag.val } s →
    exec (.lineRead tag line) s = .next u ∧ exec (.lineWrite tag line d m) s = .next u

/-- HOST_RESET asserted (R50, R65): accept withdrawn; every record free; Hold List and request items gone;
ladders ended with their holders; write follow-ons kept as orphans, in order; a HOST_RESET event; nothing
else changed and nothing sent; the model's count of host-path resets rises (notes/assumptions/8.md). Released:
only the pin changes (R51). A response other than an ERROR to a request of before the reset, or to an orphan
write, frees its tag and is discarded (R50). -/
def Obligations.HostResetClearsHostTraffic : Prop :=
  ∀ s : State,
    (s.pins.hostReset = false → ∃ t, exec .hostResetAssert s = .next t ∧ accept t = false ∧
      t = { offer { kind := .hostReset, source := .host, span := none, offset := none, slot := none,
                    value := none } s with
        pins := { s.pins with hostReset := true }
        host := { s.host with
          recs := Vector.replicate 32 none
          followOns := (s.host.followOns.filter (fun i => i.req.isWrite)).map
            (fun i => { i with origin := .orphan })
          requests := []
          headWaits := false
          ladders := Vector.replicate 4 none
          era := s.host.era + 1 }
        hold := []
        locks := { s.locks with ladders := Vector.replicate 4 none } }) ∧
    exec .hostResetRelease s = .next { s with pins := { s.pins with hostReset := false } } ∧
    (∀ (d : PortTag) (i : Issue) (c : Condition) (x : LineData), s.port.tags[d] = .inUse i →
      i.origin.forgotten s.host.era = true → i.req.endsInError c = false → ∀ u : State,
      u = { s with port := { s.port with tags := s.port.tags.set d .free } } →
      settled u = true → exec (.downstreamResponse d c x) s = .next u)

/-- Resolution of a host line of span s and offset o (R28, Table 2-4). -/
def Obligations.ResolutionFollowsTheEntry : Prop :=
  ∀ (g : Geometry) (r : Remap) (line : HostLine), ∀ s o : Nat, s = line.toNat / 64 → o = line.toNat % 64 →
    ((∀ i : Fin 128, ∀ b ∈ r[i], b.span ≠ s) → ∀ w : Bool, resolve g r w line = ⟨⟨s, o⟩, none⟩) ∧
    (∀ (i : Fin 128) (b : Binding), r[i] = some b → b.span = s →
      (∀ j : Fin 128, ∀ c ∈ r[j], c.span = s → j = i) →
      (b.stage = .active → ∀ w : Bool, resolve g r w line = ⟨⟨g.spareBase + b.slot, o⟩, none⟩) ∧
      (b.stage ≠ .active → resolve g r false line = ⟨⟨s, o⟩, none⟩) ∧
      (b.stage = .committing → resolve g r true line = ⟨⟨s, o⟩, some ⟨g.spareBase + b.slot, o⟩⟩) ∧
      (b.stage = .copying ∨ b.stage = .aborting →
        (o < b.copied → resolve g r true line = ⟨⟨s, o⟩, some ⟨g.spareBase + b.slot, o⟩⟩) ∧
        (b.copied ≤ o → resolve g r true line = ⟨⟨s, o⟩, none⟩)))

/-! ### The arbiter -/

/-- With no background request presented, the head of the host issue queue is granted the lowest free tag:
a follow-on item as it stands, a read at its resolved line, a write at its one line, or a dual write at its
source with its slot half joining the follow-on items (R41, R42, R74). A ladder's first retry counts as
used (R45). -/
def Obligations.ForegroundHeadIsIssued : Prop :=
  ∀ (s : State) (d : PortTag), s.mode ≠ .startup → s.port.LowestFree d → bgPresented s = false →
    (∀ (i : Issue) (rest : List Issue), s.host.followOns = i :: rest →
      ((∀ k t e, i.origin ≠ .ladderRetry k t e) ∨ i.reissue = true →
        exec .arbiterGrant s = .next { s with
          host := { s.host with followOns := rest }
          port := { tags := s.port.tags.set d (.inUse i), share := 0 } }) ∧
      (∀ (k : Fin 4) (t : HostTag) (e : Nat) (l : Ladder), i.origin = .ladderRetry k t e →
        i.reissue = false → s.host.ladders[k] = some l →
        exec .arbiterGrant s = .next { s with
          host := { s.host with
            followOns := rest, ladders := s.host.ladders.set k (some { l with used := l.used + 1 }) }
          port := { tags := s.port.tags.set d (.inUse i), share := 0 } })) ∧
    (∀ (tag : HostTag) (rest : List HostTag) (r : HostRec), s.host.followOns = [] →
      s.host.requests = tag :: rest → s.host.headWaits = false → s.host.recs[tag] = some r →
      (r.op = .read → ∀ p, p = resolve s.geom s.remap false r.line →
        exec .arbiterGrant s = .next { s with
          host := { s.host with
            recs := s.host.recs.set tag (some { r with place := .inFlight, resolution := some p })
            requests := rest }
          port := { tags := s.port.tags.set d
                      (.inUse ⟨⟨p.first, .read⟩, .hostRead tag s.host.era, false⟩), share := 0 } }) ∧
      (∀ (data : LineData) (m : ByteMask) (p : PhysLine), r.op = .write data m →
        resolve s.geom s.remap true r.line = ⟨p, none⟩ → s.locks.locked p = false →
        exec .arbiterGrant s = .next { s with
          host := { s.host with
            recs := s.host.recs.set tag (some { r with
              place := .inFlight, resolution := some ⟨p, none⟩, sourceHalf := some .pending
              slotHalf := none })
            requests := rest }
          port := { tags := s.port.tags.set d
                      (.inUse ⟨⟨p, .write data m false⟩, .hostWrite tag .source s.host.era, false⟩)
                    share := 0 } }) ∧
      (∀ (data : LineData) (m : ByteMask) (p q : PhysLine), r.op = .write data m →
        resolve s.geom s.remap true r.line = ⟨p, some q⟩ → s.locks.locked p = false →
        s.locks.locked q = false →
        exec .arbiterGrant s = .next { s with
          host := { s.host with
            recs := s.host.recs.set tag (some { r with
              place := .inFlight, resolution := some ⟨p, some q⟩, sourceHalf := some .pending
              slotHalf := some .pending })
            requests := rest
            followOns := [⟨⟨q, .write data m false⟩, .hostWrite tag .slot s.host.era, false⟩] }
          port := { tags := s.port.tags.set d
                      (.inUse ⟨⟨p, .write data m false⟩, .hostWrite tag .source s.host.era, false⟩)
                    share := 0 } }))

/-- The arbiter's choice between the classes (R75): with both presented the foreground is granted while the
counter is below the background share, and the counter rises; at the share, or with no foreground
presented, a background request is granted, the copy engine's before the sweep's, and the counter is 0. The
foreground granted is the head of the host issue queue, which leaves it: a follow-on item as it stands, else
the first request item at its resolved line (R41, R42). With no tag FREE, or nothing presented, nothing is
granted (R74); that the state is then unchanged, the counter included, and that a locked write at the head is
not presented, is the model's reading (notes/assumptions/3.md, 20.md and 6.md). The host request granted is IN
FLIGHT at its resolution with its halves PENDING, and the slot half of a dual write joins the follow-on items. A
retry READ granted on its first issue raises the retries used of its ladder, of the copy engine or of the sweep, and
no other grant does (R45, R100, R118). -/
def Obligations.ArbiterSharesGrants : Prop :=
  ∀ s : State,
    ((∀ d : PortTag, s.port.tags[d] ≠ .free) ∨ fgPresented s = false ∧ bgPresented s = false →
      exec .arbiterGrant s = .next s) ∧
    (∀ d : PortTag, s.mode ≠ .startup → s.port.LowestFree d →
      (fgPresented s = true → bgPresented s = true → s.port.share < s.params.bgShare →
        ∃ (t : State) (i : Issue), exec .arbiterGrant s = .next t ∧
          t.port = { tags := s.port.tags.set d (.inUse i), share := min 16 (s.port.share + 1) } ∧
          t.copy = s.copy ∧ t.sweep = s.sweep ∧
          (∀ (f : Issue) (rest : List Issue), s.host.followOns = f :: rest →
            i = f ∧ t.host.followOns = rest ∧ t.host.requests = s.host.requests) ∧
          (∀ (tag : HostTag) (rest : List HostTag) (r : HostRec), s.host.followOns = [] →
            s.host.requests = tag :: rest → s.host.recs[tag] = some r →
            t.host.requests = rest ∧
            i = (match r.op with
              | .read =>
                ⟨⟨(resolve s.geom s.remap false r.line).first, .read⟩, .hostRead tag s.host.era, false⟩
              | .write data m =>
                ⟨⟨(resolve s.geom s.remap true r.line).first, .write data m false⟩,
                  .hostWrite tag .source s.host.era, false⟩))) ∧
      (bgPresented s = true → s.port.share < s.params.bgShare →
        let port (i : Issue) : Port :=
          { tags := s.port.tags.set d (.inUse i), share := min 16 (s.port.share + 1) }
        (∀ (f : Issue) (rest : List Issue), s.host.followOns = f :: rest →
          ((∀ k t e, f.origin ≠ .ladderRetry k t e) ∨ f.reissue = true →
            exec .arbiterGrant s = .next { s with
              host := { s.host with followOns := rest }, port := port f }) ∧
          (∀ (k : Fin 4) (t : HostTag) (e : Nat) (l : Ladder), f.origin = .ladderRetry k t e →
            f.reissue = false → s.host.ladders[k] = some l →
            exec .arbiterGrant s = .next { s with
              host := { s.host with
                followOns := rest, ladders := s.host.ladders.set k (some { l with used := l.used + 1 }) }
              port := port f })) ∧
        (∀ (tag : HostTag) (rest : List HostTag) (r : HostRec), s.host.followOns = [] →
          s.host.requests = tag :: rest → s.host.headWaits = false → s.host.recs[tag] = some r →
          (r.op = .read → ∀ p, p = resolve s.geom s.remap false r.line →
            exec .arbiterGrant s = .next { s with
              host := { s.host with
                recs := s.host.recs.set tag (some { r with place := .inFlight, resolution := some p })
                requests := rest }
              port := port ⟨⟨p.first, .read⟩, .hostRead tag s.host.era, false⟩ }) ∧
          (∀ (data : LineData) (m : ByteMask) (p : Resolution), r.op = .write data m →
            p = resolve s.geom s.remap true r.line → s.locks.lockedAt p = false →
            exec .arbiterGrant s = .next { s with
              host := { s.host with
                recs := s.host.recs.set tag (some { r with
                  place := .inFlight, resolution := some p, sourceHalf := some .pending
                  slotHalf := if p.second = none then none else some .pending })
                requests := rest
                followOns := (match p.second with
                  | none => []
                  | some q => [⟨⟨q, .write data m false⟩, .hostWrite tag .slot s.host.era, false⟩]) }
              port := port ⟨⟨p.first, .write data m false⟩, .hostWrite tag .source s.host.era, false⟩ }))) ∧
      (fgPresented s = false ∨ s.params.bgShare ≤ s.port.share →
        (∀ (i : Issue) (retry : Option Retry), s.copy.request = .presented i →
          (i.origin = .copyRetry ∧ i.reissue = false ∧
              retry = s.copy.retry.map (fun r => { r with used := r.used + 1 }) ∨
            (i.origin = .copyRead ∨ i.origin = .copyWrite ∨ i.origin = .copyRetry ∧ i.reissue = true) ∧
              retry = s.copy.retry) →
          exec .arbiterGrant s = .next { s with
            copy := { s.copy with request := .atMemory, retry := retry }
            port := { tags := s.port.tags.set d (.inUse i), share := 0 } }) ∧
        (∀ (i : Issue) (retry : Option Retry), (∀ c, s.copy.request ≠ .presented c) →
          s.sweep.request = .presented i →
          (i.origin = .sweepRetry ∧ i.reissue = false ∧
              retry = s.sweep.retry.map (fun r => { r with used := r.used + 1 }) ∨
            (i.origin = .sweepRead ∨ i.origin = .sweepWrite ∨ i.origin = .sweepRetry ∧ i.reissue = true) ∧
              retry = s.sweep.retry) →
          exec .arbiterGrant s = .next { s with
            sweep := { s.sweep with request := .atMemory, retry := retry }
            port := { tags := s.port.tags.set d (.inUse i), share := 0 } })))

/-! ### Locks and the Hold List -/

/-- A locked LINE WRITE at the head is diverted with every later request item for its host line when the
Hold List has room for all of them, each entering it with place HELD and counted in holds; without room
nothing moves and the head waits (R59). The list keeps its arrival order (R57), the other records and the rest
of the host port stay. That the diversion is this row's alone is the model's reading
(notes/assumptions/6.md). -/
def Obligations.LockedHeadIsDiverted : Prop :=
  ∀ (s : State) (tag : HostTag) (rest : List HostTag) (r : HostRec), s.host.followOns = [] →
    s.host.headWaits = false → s.host.requests = tag :: rest → s.host.recs[tag] = some r → r.op ≠ .read →
    s.locks.lockedAt (resolve s.geom s.remap true r.line) = true →
    ∀ carried, carried = rest.filter (s.host.isFor r.line.toNat) →
      (8 < s.hold.length + 1 + carried.length →
        exec .holdDiversion s = .next { s with host := { s.host with headWaits := true } }) ∧
      (s.hold.length + 1 + carried.length ≤ 8 →
        ∃ (recs : Vector (Option HostRec) 32) (list : List HostTag),
          exec .holdDiversion s = .next { s with
            host := { s.host with
              recs := recs, requests := rest.filter (fun x => !s.host.isFor r.line.toNat x) }
            hold := list
            stats := { s.stats with holds := s.stats.holds + BitVec.ofNat 32 (1 + carried.length) } } ∧
          (∀ x : HostTag, recs[x] = if x ∈ tag :: carried then
            (s.host.recs[x]).map (fun q => { q with place := .held }) else s.host.recs[x]) ∧
          list.Perm (s.hold ++ tag :: carried) ∧
          (s.hold.Pairwise (fun a b => s.host.arrivalOf a ≤ s.host.arrivalOf b) →
            list.Pairwise (fun a b => s.host.arrivalOf a ≤ s.host.arrivalOf b)))

/-- When the last holder leaves a line, its record goes and every held request of the host line it serves
goes to the tail of the host issue queue in list order; while another holder stays, nothing is released
(R55, R60). A waiting head is then looked at again: locked, it is diverted or waits as HOLD_DIVERSION has it;
no longer locked, it waits no more (R59, R60). It speaks of one holder's leaving; that a step in which two records
go looks at the head after each of them is the model's choice (notes/assumptions/27.md). -/
def Obligations.LastHolderReleasesTheLine : Prop :=
  ∀ (s : State) (h : Holder) (p : PhysLine), s.locks.lineOf h = some p →
    ∀ t, t = removeHolder h s →
      (t.locks.lineOf h = none ∧ (∀ k : Holder, k ≠ h → t.locks.lineOf k = s.locks.lineOf k)) ∧
      ((∃ k : Holder, k ≠ h ∧ s.locks.lineOf k = some p) →
        t.locks.locked p = true ∧ t.hold = s.hold ∧ t.host = s.host) ∧
      (∀ line : Nat, s.host.headWaits = false → (∀ k : Holder, k ≠ h → s.locks.lineOf k ≠ some p) →
        servedLine s p = some line →
        t.locks.locked p = false ∧
        t.hold = s.hold.filter (fun x => !s.host.isFor line x) ∧
        t.host.requests = s.host.requests ++ s.hold.filter (s.host.isFor line) ∧
        (∀ x ∈ s.hold, s.host.isFor line x = true →
          t.host.recs[x] = (s.host.recs[x]).map (fun q => { q with place := .queued }))) ∧
      (s.host.headWaits = true → (∀ k : Holder, k ≠ h → s.locks.lineOf k ≠ some p) →
        ∀ v, v = removeHolder h { s with host := { s.host with headWaits := false } } →
          (headLocked v = false → t = v) ∧
          (headLocked v = true → s.host.followOns = [] → exec .holdDiversion v = .next t))

/-! ### The memory line port: completions -/

/-- The READ of a host read completes (R43, R44, R45): CLEAN and FIXED answer GOOD with the data, FIXED with
a fixed increment and a CORRECTED event when log corrected is on; POISONED answers POISONED; FAILED starts
the lowest free ladder, under its lock and with a retry waiting, or answers POISONED at once with a failed
increment, an UNCORRECTABLE event and a final failed read. A retry READ of a ladder completes (R46): CLEAN and
FIXED answer GOOD with TRANSIENT and its statistic, FAILED waits for a further retry while retries are left,
and otherwise answers POISONED as above with the limit; POISONED answers POISONED; a ladder that ends is free
and its holder leaves its line. That an increment's own events come before CORRECTED and UNCORRECTABLE is the
model's reading (notes/assumptions/13.md). -/
def Obligations.HostReadsComplete : Prop :=
  ∀ (s : State) (d : PortTag) (tag : HostTag) (p : PhysLine) (re : Bool) (data : LineData),
    ∀ freed : State, freed = { s with port := { s.port with tags := s.port.tags.set d .free } } →
    ∀ gone : Vector (Option HostRec) 32, gone = s.host.recs.set tag none →
    let answered (o : ReadOutcome) (x : LineData) : State := { freed with host := { s.host with
      recs := gone, sent := s.host.sent ++ [.readData tag o x (s.mode == .fenced)] } }
    let corrected (t : State) : State :=
      if s.params.logCorrected then
        offer (lineEvent .corrected .host p none) (healthIncrement p.span false .host t)
      else healthIncrement p.span false .host t
    let final (retries : Nat) : State :=
      let h := offer (lineEvent .uncorrectable .host p (some retries))
        (healthIncrement p.span true .host (answered .poisoned zeroLine))
      { h with stats := { h.stats with finalFailedReads := h.stats.finalFailedReads + 1 } }
    (s.port.tags[d] = .inUse ⟨⟨p, .read⟩, .hostRead tag s.host.era, re⟩ →
      (settled (answered .good data) = true →
        exec (.downstreamResponse d .clean data) s = .next (answered .good data)) ∧
      (settled (answered .poisoned zeroLine) = true →
        exec (.downstreamResponse d .poisoned data) s = .next (answered .poisoned zeroLine)) ∧
      (∀ u : State, u = corrected (answered .good data) →
        settled u = true → exec (.downstreamResponse d .fixed data) s = .next u) ∧
      ((s.params.retryLimit = 0 ∨ ∀ k : Fin 4, s.host.ladders[k] ≠ none) → ∀ u : State, u = final 0 →
        settled u = true → exec (.downstreamResponse d .failed data) s = .next u) ∧
      (∀ k : Fin 4, s.params.retryLimit ≠ 0 → s.host.ladders[k] = none →
        (∀ j : Fin 4, j < k → s.host.ladders[j] ≠ none) → ∀ r, s.host.recs[tag] = some r → ∀ u : State,
        u = { freed with
          host := { s.host with
            recs := s.host.recs.set tag (some { r with place := .ladder k })
            ladders := s.host.ladders.set k (some ⟨tag, p, 0, s.params.retryLimit⟩)
            followOns := s.host.followOns ++ [⟨⟨p, .read⟩, .ladderRetry k tag s.host.era, false⟩] }
          locks := { s.locks with ladders := s.locks.ladders.set k (some p) } } →
        settled u = true → exec (.downstreamResponse d .failed data) s = .next u)) ∧
    (∀ (k : Fin 4) (used limit : Nat), s.host.ladders[k] = some ⟨tag, p, used, limit⟩ →
      s.port.tags[d] = .inUse ⟨⟨p, .read⟩, .ladderRetry k tag s.host.era, re⟩ →
      let ended (t : State) : State :=
        removeHolder (.ladder k) { t with host := { t.host with ladders := t.host.ladders.set k none } }
      let recovered : State :=
        let t := offer (lineEvent .transient .host p (some used)) (answered .good data)
        { t with stats := { t.stats with transientRecoveries := t.stats.transientRecoveries + 1 } }
      (∀ u : State, u = ended recovered →
        settled u = true → exec (.downstreamResponse d .clean data) s = .next u) ∧
      (∀ u : State, u = ended (corrected recovered) →
        settled u = true → exec (.downstreamResponse d .fixed data) s = .next u) ∧
      (∀ u : State, u = ended (answered .poisoned zeroLine) →
        settled u = true → exec (.downstreamResponse d .poisoned data) s = .next u) ∧
      (used < limit → ∀ u : State, u = { freed with host := { s.host with
          followOns := s.host.followOns ++ [⟨⟨p, .read⟩, .ladderRetry k tag s.host.era, false⟩] } } →
        settled u = true → exec (.downstreamResponse d .failed data) s = .next u) ∧
      (used = limit → ∀ u : State, u = ended (final limit) →
        settled u = true → exec (.downstreamResponse d .failed data) s = .next u))

/-- A half of a host write completes DONE (R48, R49), the source (or only) half or the slot half: a write with
no other half, or with its other half settled, is answered and its record freed, DROPPED if the other half
FAILED and DONE otherwise; a dual write whose other half is PENDING waits with this half DONE. Nothing else
changes. -/
def Obligations.HostWritesComplete : Prop :=
  ∀ (s : State) (d : PortTag) (tag : HostTag) (p : PhysLine) (data x : LineData) (m : ByteMask) (re : Bool)
    (half : Half) (r : HostRec), s.host.recs[tag] = some r → s.port.tags[d] =
      .inUse ⟨⟨p, .write data m false⟩, .hostWrite tag half s.host.era, re⟩ →
    ∀ freed : State, freed = { s with port := { s.port with tags := s.port.tags.set d .free } } →
    ∀ other : Option HalfResult, other = (match half with | .source => r.slotHalf | .slot => r.sourceHalf) →
    (∀ o : WriteOutcome, other ≠ some .pending → o = (if other = some .failed then .dropped else .done) →
      ∀ u : State,
      u = { freed with host := { s.host with
        recs := s.host.recs.set tag none
        sent := s.host.sent ++ [.writeDone tag o (s.mode == .fenced)] } } →
      settled u = true → exec (.downstreamResponse d .done x) s = .next u) ∧
    (other = some .pending → ∀ u : State,
      u = { freed with host := { s.host with recs := s.host.recs.set tag (some (match half with
        | .source => { r with sourceHalf := some .done }
        | .slot => { r with slotHalf := some .done })) } } →
      settled u = true → exec (.downstreamResponse d .done x) s = .next u)

/-- A first issue that ends in ERROR, or times out, is reissued where its originator's requests wait, with a
MEMORY_ERROR event, and a timeout quarantines its tag with a TAG_QUARANTINED event first (R71, R72); a response
whose condition does not belong to the request's kind counts as ERROR (R67). Of a request of before the last
host-path reset, a write is reissued as an orphan write and a read is not reissued (R50, R72). A
response to a QUARANTINED tag only frees it, and one to a FREE tag does nothing (R70); that TAG_TIMEOUT on a
tag not IN USE, which cannot arise, changes nothing is the model's choice (notes/assumptions/3.md). -/
def Obligations.FirstErrorsAreReissued : Prop :=
  ∀ (s : State) (d : PortTag) (x : LineData) (c : Condition),
    (s.port.tags[d] = .free →
      exec (.downstreamResponse d c x) s = .next s ∧ exec (.tagTimeout d) s = .next s) ∧
    (s.port.tags[d] = .quarantined →
      exec (.downstreamResponse d c x) s =
        .next { s with port := { s.port with tags := s.port.tags.set d .free } } ∧
      exec (.tagTimeout d) s = .next s) ∧
    (∀ i : Issue, s.port.tags[d] = .inUse i → i.reissue = false →
      let again : Issue := { i with reissue := true }
      let queues (a : Issue) (t : State) : State :=
        { t with host := { t.host with followOns := t.host.followOns ++ [a] } }
      let waits (t : State) : State :=
        match i.origin with
        | .copyRead | .copyRetry | .copyWrite =>
          { t with copy := { t.copy with request := .presented again } }
        | .sweepRead | .sweepRetry | .sweepWrite =>
          { t with sweep := { t.sweep with request := .presented again } }
        | .hostRead _ e | .ladderRetry _ _ e => if e = s.host.era then queues again t else t
        | .hostWrite _ _ e => queues (if e = s.host.era then again else { again with origin := .orphan }) t
        | .orphan => queues again t
      (i.req.endsInError c = true → ∀ u : State,
        u = waits (offer (lineEvent .memoryError .port i.req.line (some 1))
          { s with port := { s.port with tags := s.port.tags.set d .free } }) →
        settled u = true → exec (.downstreamResponse d c x) s = .next u) ∧
      (∀ u : State, u = waits (offer (lineEvent .memoryError .port i.req.line (some 2))
          (offer (lineEvent .tagQuarantined .port i.req.line (some d.val))
            { s with port := { s.port with tags := s.port.tags.set d .quarantined } })) →
        settled u = true → exec (.tagTimeout d) s = .next u))

/-- A reissue that ends in ERROR, by a response or by a timeout, fences the bridge (R4, R73): the mode is
FENCED with its events in order, the FAULT flag is set, and nothing joins the Retirement Queue and no copy
starts from it (R6). A WAITING sweep is STOPPED with its timer off and a line in progress keeps its position
(R7, R125); the sweep's own failed request abandons its line (R120; what becomes of the position held flag is
notes/assumptions/16.md). A copy in BEGINNING or in a line's cycle becomes ABORTING with cause FENCE, its BEGIN
record or its request the step in flight; an abort goes on with its cause, and IDLE and COMMITTING go on (R6, R20,
R110). A copy whose own request failed, or that waits for a quiet line, has no step left: COPY leaves, and the
CANCEL record is requested, appended at once or behind a compaction by an IDLE controller, or skipped (R103, R109);
its line data and retry fields go then by the model's choice (notes/assumptions/26.md). A host read, or a ladder's
retry with its ladder, is answered POISONED with CONTAIN (R47); a host write DROPPED with CONTAIN once its other
half, if any, is settled, and until then its half is FAILED (R48, R49). That the failed reissue of a request of
before a host-path reset fences too is the model's reading (notes/assumptions/9.md). -/
def Obligations.SecondErrorsFence : Prop :=
  ∀ (s : State) (d : PortTag) (x : LineData) (c : Condition) (i : Issue) (late : Bool),
    s.port.tags[d] = .inUse i → i.reissue = true → (late = false → i.req.endsInError c = true) →
    ∀ told : State, told = offer (lineEvent .memoryError .port i.req.line (some (if late then 4 else 3)))
      (if late then offer (lineEvent .tagQuarantined .port i.req.line (some d.val))
          { s with port := { s.port with tags := s.port.tags.set d .quarantined } }
        else { s with port := { s.port with tags := s.port.tags.set d .free } }) →
    ∃ t, exec (if late then .tagTimeout d else .downstreamResponse d c x) s = .next t ∧ t.mode = .fenced ∧
      t.port = told.port ∧ t.retire = s.retire ∧ t.events.flags.getLsbD 5 = true ∧
      (s.mode ≠ .fenced →
        (offer (lineEvent .fenced .port i.req.line none) told).events.records <+: t.events.records) ∧
      (s.mode ≠ .fenced → s.sweep.state = .waiting → t.sweep.state = .stopped ∧ t.sweep.timer = none) ∧
      (s.mode ≠ .fenced → lineInProgress s.sweep = true → i.origin.isSweep = false →
        t.sweep.state = s.sweep.state ∧ t.sweep.positionHeld = true) ∧
      (i.origin.isSweep = true → t.locks.sweep = none ∧ t.sweep = { s.sweep with
        state := .stopped, line := none, data := none, retry := none, request := .absent, timer := none
        stopPending := false, positionHeld := t.sweep.positionHeld }) ∧
      (∀ (j : CopyJob) (b : Binding) (cause : AbortCause), s.copy.job = some j →
        s.remap[j.entry] = some b → s.copy.cancelDone = false →
        (i.origin.isCopy = true ∧ s.copy.request = .atMemory ∧
            (s.mode ≠ .fenced ∧ inCopying s.copy = true ∧ b.stage = .copying ∧ cause = .fence ∨
              s.copy.state = .aborting ∧ b.stage = .aborting ∧ s.copy.cause = some cause) ∨
          i.origin.isCopy = false ∧ s.mode ≠ .fenced ∧ s.copy.state = .lineRead ∧ s.copy.request = .absent ∧
            b.stage = .copying ∧ cause = .fence) →
        let ended : CopyCtx := { s.copy with
          state := .aborting, data := none, writeKind := none, retry := none, cause := some cause
          stepInFlight := false, request := .absent }
        t.locks.copy = none ∧
        (s.journal.TakesRecords →
          t.remap[j.entry] = some { b with stage := .aborting } ∧
          t.journal = s.journal.asked ⟨.cancelRec, j.span, j.slot, 0⟩ ∧ t.copy = ended) ∧
        (s.journal.store = .online → s.journal.task = .idle → s.journal.requests = [] → 256 ≤ s.journal.next →
          t.remap[j.entry] = some { b with stage := .aborting } ∧ t.copy = ended ∧
          t.journal = { s.journal with
            task := .compact .append (if s.journal.live = some .b then .a else .b) .erasing
            requests := [.record ⟨.cancelRec, j.span, j.slot, 0⟩], snapshot := some (snapshotOf t.remap) }) ∧
        (s.journal.store ≠ .online → serveDue s = false →
          (spanWriteInFlight told (s.geom.spareBase + j.slot) = false →
            t.remap[j.entry] = none ∧ t.copy = idleCopy false) ∧
          (spanWriteInFlight told (s.geom.spareBase + j.slot) = true →
            (i.origin.isSweep = true → s.sweep.request = .atMemory) →
            t.remap[j.entry] = some { b with stage := .aborting } ∧
            t.copy = { ended with cancelDone := true }))) ∧
      (i.origin.isCopy = false → serveDue s = false →
        (∀ (j : CopyJob) (b : Binding), s.mode ≠ .fenced → s.copy.job = some j → s.remap[j.entry] = some b →
          b.stage = .copying →
          s.copy.state = .beginning ∨ inCopying s.copy = true ∧ s.copy.request ≠ .absent →
          t.remap = s.remap.set j.entry (some { b with stage := .aborting }) ∧ t.journal = s.journal ∧
          t.copy = { s.copy with
            state := .aborting, writeKind := none, cause := some .fence, stepInFlight := true }) ∧
        (s.copy.state = .idle ∨ s.copy.state = .committing ∨
            s.copy.state = .aborting ∧ s.copy.stepInFlight = true →
          t.remap = s.remap ∧ t.journal = s.journal ∧ t.copy = s.copy)) ∧
      (∀ tag : HostTag, i.origin = .hostRead tag s.host.era ∨
          (∃ k, i.origin = .ladderRetry k tag s.host.era) →
        t.host.recs[tag] = none ∧ .readData tag .poisoned zeroLine true ∈ t.host.sent) ∧
      (∀ (k : Fin 4) (tag : HostTag), i.origin = .ladderRetry k tag s.host.era →
        t.host.ladders[k] = none ∧ t.locks.lineOf (.ladder k) = none) ∧
      (∀ (tag : HostTag) (half : Half) (r : HostRec) (other : Option HalfResult),
        i.origin = .hostWrite tag half s.host.era → s.host.recs[tag] = some r →
        other = (match half with | .source => r.slotHalf | .slot => r.sourceHalf) →
        (other ≠ some .pending →
          t.host.recs[tag] = none ∧ .writeDone tag .dropped true ∈ t.host.sent) ∧
        (other = some .pending → s.mode = .fenced → ∀ u : State,
          u = { told with host := { s.host with recs := s.host.recs.set tag (some (match half with
            | .source => { r with sourceHalf := some .failed }
            | .slot => { r with slotHalf := some .failed })) } } →
          settled u = true → t = u) ∧
        (other = some .pending → serveDue s = false →
          s.copy.state = .idle ∨ s.copy.state = .committing ∨ s.copy.state = .beginning ∨
            inCopying s.copy = true ∧ s.copy.request ≠ .absent ∨
            s.copy.state = .aborting ∧ s.copy.stepInFlight = true ∨
            s.copy.state = .lineRead ∧ s.copy.cancelDone = false ∧ s.journal.TakesRecords ∧ s.hold = [] ∧
              s.host.headWaits = false →
          t.host = { s.host with recs := s.host.recs.set tag (some (match half with
            | .source => { r with sourceHalf := some .failed }
            | .slot => { r with slotHalf := some .failed })) }))

/-! ### Health -/

/-- An increment (R79, R80, R81): it counts in the span's own entry, else in a new entry at the lowest empty
place, else in a new entry in a victim's place, saturating at 255 and 15, with the pass as last seen. Below both
thresholds nothing else changes. At a threshold (R83 to R85, Table 6-3) a SPARE entry reports SPARE_DEGRADED
once; a HOST entry reports THRESHOLD once with auto-retire off, and with it on requests retirement, which
ONLINE takes, declines in silence, or defers for want of room (R90, R91). A victim has failed count 0, the
lowest fixed count, then the greatest age, then the lowest index, and there is one when an entry has failed
count 0; with none the increment is dropped and reported once a pass (R82). -/
def Obligations.IncrementsAreCounted : Prop :=
  (∀ (s : State) (span : Nat) (failed : Bool) (src : Source) (i : Fin 64) (e : HealthEntry),
    (s.health[i] = some e ∧ e.span = span ∧ HealthSound s.health ∨
      (∀ j : Fin 64, ∀ f ∈ s.health[j], f.span ≠ span) ∧
        (s.health[i] = none ∧ (∀ j : Fin 64, j < i → s.health[j] ≠ none) ∨
          (∀ j : Fin 64, s.health[j] ≠ none) ∧ victim s.sweep.pass s.health = some i) ∧
        e = ⟨span, s.geom.inPool span, 0, 0, s.sweep.pass, s.sweep.pass, false⟩) →
    ∀ e', e' = { e with
      fixed := if failed then e.fixed else min 255 (e.fixed + 1)
      failed := if failed then min 15 (e.failed + 1) else e.failed
      lastSeen := s.sweep.pass } →
    ∀ counted : State, counted = { s with health := s.health.set i (some e') } →
    let code : Nat := (if s.params.fixedThreshold ≤ e'.fixed then 1 else 0)
      + (if s.params.failedThreshold ≤ e'.failed then 2 else 0)
    let reports (ev : Event) : State := if e'.reported then counted else
      { offer ev s with health := s.health.set i (some { e' with reported := true }) }
    (code = 0 → healthIncrement span failed src s = counted) ∧
    (0 < code → e'.spare = true → healthIncrement span failed src s =
      reports (spanEvent .spareDegraded src span (some (span - s.geom.spareBase)) (some code))) ∧
    (0 < code → e'.spare = false → s.params.autoRetire = false → healthIncrement span failed src s =
      reports (spanEvent .threshold src span none (some code))) ∧
    (0 < code → e'.spare = false → s.params.autoRetire = true →
      ((s.mode ≠ .online ∨ s.geom.usable span = false ∨ (∃ q ∈ s.retire, q.span = span) ∨
          ∃ k : Fin 128, ∃ b ∈ s.remap[k], b.span = span) →
        healthIncrement span failed src s = counted) ∧
      (s.mode = .online → s.geom.usable span = true → (∀ q ∈ s.retire, q.span ≠ span) →
        (∀ k : Fin 128, ∀ b ∈ s.remap[k], b.span ≠ span) →
        (s.retire.length < 8 → healthIncrement span failed src s =
          { offer (spanEvent .retireQueued src span none (some (s.retire.length + 1))) counted with
            retire := s.retire ++ [⟨span, .auto⟩] }) ∧
        (8 ≤ s.retire.length → healthIncrement span failed src s =
          offer (spanEvent .retireDeferred src span none (some 8)) counted)))) ∧
  (∀ (pass : BitVec 16) (h : Health) (i : Fin 64), victim pass h = some i →
    ∃ e, h[i] = some e ∧ e.failed = 0 ∧ ∀ (j : Fin 64) (f : HealthEntry), h[j] = some f → f.failed = 0 →
      e.fixed < f.fixed ∨ e.fixed = f.fixed ∧ ((pass - f.lastSeen).toNat < (pass - e.lastSeen).toNat ∨
        (pass - f.lastSeen).toNat = (pass - e.lastSeen).toNat ∧ i ≤ j)) ∧
  (∀ (pass : BitVec 16) (h : Health), (∃ i : Fin 64, ∃ e, h[i] = some e ∧ e.failed = 0) →
    ∃ i, victim pass h = some i) ∧
  (∀ (s : State) (span : Nat) (failed : Bool) (src : Source),
    (∀ j : Fin 64, ∃ f, s.health[j] = some f ∧ f.span ≠ span ∧ 0 < f.failed) →
    healthIncrement span failed src s = if s.sweep.tableFull then s else
      { offer (spanEvent .healthTableFull src span none (some (if failed then 2 else 1))) s with
        sweep := { s.sweep with tableFull := true } })

/-- Decay at a pass end (R86): every fixed count halved, failed counts kept, an entry with both counts 0
removed, and the reported flag cleared on an entry below both thresholds and kept on one at threshold. -/
def Obligations.DecayHalvesFixedCounts : Prop :=
  ∀ (p : Params) (h : Health) (i : Fin 64),
    (h[i] = none → (decay p h)[i] = none) ∧
    (∀ e, h[i] = some e → e.fixed < 2 → e.failed = 0 → (decay p h)[i] = none) ∧
    (∀ e, h[i] = some e → (2 ≤ e.fixed ∨ 0 < e.failed) → (decay p h)[i] = some { e with
      fixed := e.fixed / 2
      reported := e.reported && (decide (p.fixedThreshold ≤ e.fixed / 2) || decide (p.failedThreshold ≤ e.failed)) })

/-! ### The copy engine -/

/-- COPY_START (R16, R95, R96, R97): the head span takes the lowest FREE entry and the lowest free slot,
COPYING, with RETIRE_STARTED; with the store ONLINE its BEGIN record is requested, with the store not ONLINE
line 0 is taken at once. With no slot, SPARE_EXHAUSTED is offered, and not again while the exhaustion-reported
flag is set. COPY_READ_PRESENT presents the READ of a line that has become quiet (R98). -/
def Obligations.CopiesStart : Prop :=
  ∀ s : State,
    (∀ (q : Queued) (rest : List Queued) (e : Fin 128) (k : Nat), s.copy.state = .idle → s.mode = .online →
      s.retire = q :: rest → s.remap[e] = none → (∀ j : Fin 128, j < e → s.remap[j] ≠ none) →
      k < s.geom.spareCount → (∀ i : Fin 128, ∀ b ∈ s.remap[i], b.slot ≠ k) →
      (∀ l : Nat, l < k → ∃ i : Fin 128, ∃ b ∈ s.remap[i], b.slot = l) →
      let started : State := { offer (spanEvent .retireStarted .copy q.span (some k) (some e.val)) s with
        retire := rest
        remap := s.remap.set e (some ⟨.copying, q.span, k, 0, q.origin, false, 0⟩) }
      let ctx : CopyCtx := { idleCopy false with state := .beginning, job := some ⟨e, q.span, k⟩ }
      (s.journal.TakesRecords → ∀ u : State,
        u = { started with copy := ctx, journal := s.journal.asked ⟨.beginRec, q.span, k, 0⟩ } →
        settled u = true → exec .copyStart s = .next u) ∧
      (s.journal.store ≠ .online → s.journal.task ≠ .idle ∨ s.journal.requests = [] →
        hostWriteAt s ⟨q.span, 0⟩ = false → s.locks.sweep ≠ some ⟨q.span, 0⟩ → ∀ u : State,
        u = { started with
          copy := { ctx with
            state := .lineRead
            request := .presented ⟨⟨⟨q.span, 0⟩, .read⟩, .copyRead, false⟩ }
          locks := { s.locks with copy := some ⟨q.span, 0⟩ } } →
        settled u = true → exec .copyStart s = .next u)) ∧
    (∀ (q : Queued) (rest : List Queued), s.copy.state = .idle → s.mode = .online → s.retire = q :: rest →
      (∀ l : Nat, l < s.geom.spareCount → ∃ i : Fin 128, ∃ b ∈ s.remap[i], b.slot = l) →
      (s.copy.exhausted = false → ∀ u : State,
        u = { offer (spanEvent .spareExhausted .copy q.span none (some s.geom.spareCount)) s with
          copy := { s.copy with exhausted := true } } →
        settled u = true → serveDue s = false → exec .copyStart s = .next u) ∧
      (s.copy.exhausted = true → settled s = true → exec .copyStart s = .next s)) ∧
    (∀ j : CopyJob, s.copy.state = .lineRead → s.copy.request = .absent → s.copy.job = some j →
      hostWriteAt s ⟨j.span, s.copy.cursor⟩ = false → s.locks.sweep ≠ some ⟨j.span, s.copy.cursor⟩ →
      exec .copyReadPresent s = .next { s with copy := { s.copy with
        request := .presented ⟨⟨⟨j.span, s.copy.cursor⟩, .read⟩, .copyRead, false⟩ } })

/-- The line cycle of a copy (R17, R25, R98 to R102, R105). The read of the cursor line, or a retry of it after
a TRANSIENT event: CLEAN and FIXED data is presented to the slot line as a full unmarked write, FIXED with a
fixed increment and CORRECTED; POISONED is carried as a marked write; FAILED waits for a retry while retries
are left, and otherwise is carried as a marked write with a failed increment. The slot write DONE advances
copied, counts and reports a marked line, clears the line's fields and takes COPY from the line; below line 63
COPY and the cursor move to the next line, whose READ is presented when it is quiet; after line 63 the entry is
COMMITTING and its ASSIGN record requested, or skipped with the entry ACTIVE at once. That an increment's own events
come before CORRECTED and after TRANSIENT is the model's reading (notes/assumptions/13.md). -/
def Obligations.CopyLinesAdvance : Prop :=
  ∀ (s : State) (d : PortTag) (j : CopyJob) (re : Bool) (data : LineData), s.copy.job = some j →
    ∀ freed : State, freed = { s with port := { s.port with tags := s.port.tags.set d .free } } →
    ∀ source slot : PhysLine, source = ⟨j.span, s.copy.cursor⟩ →
    slot = ⟨s.geom.spareBase + j.slot, s.copy.cursor⟩ →
    let carried (t : State) : State := { t with copy := { s.copy with
      state := .lineWrite, data := some data, writeKind := some .plain
      request := .presented ⟨⟨slot, .write data fullMask false⟩, .copyWrite, false⟩ } }
    let corrected (t : State) : State :=
      if s.params.logCorrected then
        offer (lineEvent .corrected .copy source none) (healthIncrement source.span false .copy (carried t))
      else healthIncrement source.span false .copy (carried t)
    let poisoned (k : WriteKind) : State := { freed with copy := { s.copy with
      state := .lineWrite, writeKind := some k
      request := .presented ⟨⟨slot, .write zeroLine fullMask true⟩, .copyWrite, false⟩ } }
    let retried (r : Retry) : State := { freed with copy := { s.copy with
      state := .lineRetry, retry := some r
      request := .presented ⟨⟨source, .read⟩, .copyRetry, false⟩ } }
    (s.copy.state = .lineRead → s.port.tags[d] = .inUse ⟨⟨source, .read⟩, .copyRead, re⟩ →
      (∀ u : State, u = carried freed →
        settled u = true → exec (.downstreamResponse d .clean data) s = .next u) ∧
      (∀ u : State, u = corrected freed →
        settled u = true → exec (.downstreamResponse d .fixed data) s = .next u) ∧
      (∀ u : State, u = poisoned .poisonCarried →
        settled u = true → exec (.downstreamResponse d .poisoned data) s = .next u) ∧
      (s.params.retryLimit = 0 → ∀ u : State, u = healthIncrement source.span true .copy (poisoned .poisonFailed) →
        settled u = true → exec (.downstreamResponse d .failed data) s = .next u) ∧
      (s.params.retryLimit ≠ 0 → ∀ u : State, u = retried ⟨0, s.params.retryLimit⟩ →
        settled u = true → exec (.downstreamResponse d .failed data) s = .next u)) ∧
    (∀ r : Retry, s.copy.state = .lineRetry → s.copy.retry = some r →
      s.port.tags[d] = .inUse ⟨⟨source, .read⟩, .copyRetry, re⟩ →
      ∀ told : State, told = offer (lineEvent .transient .copy source (some r.used)) freed →
      (∀ u : State, u = carried told →
        settled u = true → exec (.downstreamResponse d .clean data) s = .next u) ∧
      (∀ u : State, u = corrected told →
        settled u = true → exec (.downstreamResponse d .fixed data) s = .next u) ∧
      (∀ u : State, u = poisoned .poisonCarried →
        settled u = true → exec (.downstreamResponse d .poisoned data) s = .next u) ∧
      (r.used < r.limit → ∀ u : State, u = retried r →
        settled u = true → exec (.downstreamResponse d .failed data) s = .next u) ∧
      (r.used = r.limit → ∀ u : State, u = healthIncrement source.span true .copy (poisoned .poisonFailed) →
        settled u = true → exec (.downstreamResponse d .failed data) s = .next u)) ∧
    (∀ (b : Binding) (x : DownBody) (p : PhysLine), s.copy.state = .lineWrite →
      s.copy.writeKind = some .plain → s.copy.cursor < 63 → serveDue s = false → x ≠ .read →
      s.port.tags[d] = .inUse ⟨⟨p, x⟩, .copyWrite, re⟩ → s.remap[j.entry] = some b → b.stage = .copying →
      ∃ t, exec (.downstreamResponse d .done data) s = .next t ∧
        t.remap = s.remap.set j.entry (some { b with copied := s.copy.cursor + 1 }) ∧
        t.copy.cursor = s.copy.cursor + 1 ∧ t.copy.state = .lineRead ∧ t.copy.job = some j ∧
        t.locks.copy = some ⟨j.span, s.copy.cursor + 1⟩ ∧ t.retire = s.retire ∧ t.health = s.health) ∧
    (∀ (b : Binding) (x : DownBody) (p : PhysLine) (k : WriteKind), s.copy.state = .lineWrite →
      s.copy.writeKind = some k → x ≠ .read → s.port.tags[d] = .inUse ⟨⟨p, x⟩, .copyWrite, re⟩ →
      s.remap[j.entry] = some b → b.stage = .copying →
      ∀ b' : Binding, b' = { b with
        stage := if s.copy.cursor < 63 then .copying else .committing
        copied := s.copy.cursor + 1
        poisoned := if k = .plain then b.poisoned else b.poisoned + 1 } →
      ∀ left : State, left = removeHolder .copy { (if k = .plain then freed else offer
          { kind := .lineCarriedPoison, source := .copy, span := some j.span, offset := some s.copy.cursor
            slot := some j.slot, value := some (if k = .poisonFailed then 1 else 2) } freed) with
        remap := s.remap.set j.entry (some b')
        copy := { s.copy with data := none, writeKind := none, retry := none, request := .absent } } →
      (s.copy.cursor < 63 → ∀ (next : PhysLine) (u : State), next = ⟨j.span, s.copy.cursor + 1⟩ →
        u = { left with
          locks := { left.locks with copy := some next }
          copy := { left.copy with
            state := .lineRead, cursor := s.copy.cursor + 1
            request := if hostWriteAt left next = false ∧ left.locks.sweep ≠ some next then
              .presented ⟨⟨next, .read⟩, .copyRead, false⟩ else .absent } } →
        settled u = true → exec (.downstreamResponse d .done data) s = .next u) ∧
      (s.copy.cursor = 63 → s.journal.TakesRecords → ∀ u : State,
        u = { left with
          copy := { left.copy with state := .committing }
          journal := s.journal.asked ⟨.assignRec, j.span, j.slot, b'.poisoned⟩ } →
        settled u = true → exec (.downstreamResponse d .done data) s = .next u) ∧
      (s.copy.cursor = 63 → s.journal.store ≠ .online → ∀ u : State,
        u = { offer (spanEvent .retireDone .copy j.span (some j.slot) (some b'.poisoned)) left with
          remap := s.remap.set j.entry (some { b' with stage := .active, journaled := false })
          health := removeRetired j.span s.health
          copy := idleCopy s.copy.exhausted } →
        settled u = true → exec (.downstreamResponse d .done data) s = .next u))

/-- ABORT_END with its conditions met and no slot half waiting: the entry becomes FREE, RETIRE_CANCELLED is
offered with its cause, and the copy engine is IDLE with its exhaustion-reported flag clear; nothing else
changes. A waiting slot half is withdrawn and counts DONE for its dual write (R21, R49, R109). Before that, the
step in flight of an abort ends: a read by its condition, FIXED with a fixed increment, a last retry FAILED with
a failed one, its data discarded; a slot write DONE with copied advanced and a marked line counted. COPY then
leaves its line and the CANCEL record is requested, or skipped (R108, R109); that the line data and retry fields go
then is the model's choice (notes/assumptions/26.md). -/
def Obligations.AbortsEnd : Prop :=
  ∀ (s : State) (j : CopyJob) (b : Binding), s.copy.state = .aborting → s.copy.job = some j →
    s.remap[j.entry] = some b → b.stage = .aborting →
    (s.copy.stepInFlight = false → s.copy.cancelDone = true →
      spanWriteInFlight s (s.geom.spareBase + j.slot) = false → serveDue s = false →
      ((∀ i ∈ s.host.followOns, i.req.line.span ≠ s.geom.spareBase + j.slot) → ∀ u : State,
        u = { offer (spanEvent .retireCancelled .copy j.span (some j.slot)
                (some (if s.copy.cause = some .fence then 2 else 1))) s with
          remap := s.remap.set j.entry none, copy := idleCopy false } →
        settled u = true → exec .abortEnd s = .next u) ∧
      (∀ (tag : HostTag) (r : HostRec) (p : PhysLine) (x : LineData) (m : ByteMask),
        s.host.followOns = [⟨⟨p, .write x m false⟩, .hostWrite tag .slot s.host.era, false⟩] →
        p.span = s.geom.spareBase + j.slot → s.host.recs[tag] = some r → r.sourceHalf = some .done →
        ∃ t, exec .abortEnd s = .next t ∧ t.host.followOns = [] ∧ t.host.recs[tag] = none ∧
          .writeDone tag .done (s.mode == .fenced) ∈ t.host.sent)) ∧
    (∀ (d : PortTag) (i : Issue) (c : Condition) (data : LineData) (counted : State),
      s.port.tags[d] = .inUse i →
      ∀ freed : State, freed = { s with port := { s.port with tags := s.port.tags.set d .free } } →
      ((i.origin = .copyRead ∨ i.origin = .copyRetry) ∧ i.req.body = .read ∧
          ((c = .clean ∨ c = .poisoned) ∧ counted = freed ∨
            c = .fixed ∧ counted = healthIncrement i.req.line.span false .copy freed ∨
            c = .failed ∧ (i.origin = .copyRead ∨ ∃ r, s.copy.retry = some r ∧ r.used < r.limit) ∧
              counted = freed ∨
            c = .failed ∧ i.origin = .copyRetry ∧ (∃ r, s.copy.retry = some r ∧ r.used = r.limit) ∧
              counted = healthIncrement i.req.line.span true .copy freed) ∨
        i.origin = .copyWrite ∧ c = .done ∧ ∃ (x : LineData) (m : ByteMask) (mark : Bool),
          i.req.body = .write x m mark ∧ counted = { freed with remap := s.remap.set j.entry (some { b with
            copied := s.copy.cursor + 1, poisoned := if mark then b.poisoned + 1 else b.poisoned }) }) →
      ∀ left : State, left = removeHolder .copy { counted with copy := { s.copy with
        data := none, writeKind := none, retry := none, stepInFlight := false, request := .absent } } →
      (s.journal.TakesRecords → ∀ u : State,
        u = { left with journal := s.journal.asked ⟨.cancelRec, j.span, j.slot, 0⟩ } →
        settled u = true → exec (.downstreamResponse d c data) s = .next u) ∧
      (s.journal.store ≠ .online → ∀ u : State,
        u = { left with copy := { left.copy with cancelDone := true } } →
        settled u = true → exec (.downstreamResponse d c data) s = .next u))

/-! ### The sweep -/

/-- The sweep. SWEEP_INTERVAL_EXPIRY (R116): a line under copy, locked, or with a held request is skipped,
counted, and the timer started for the next; any other line is taken under SWEEP at its resolved place,
READING, with its READ presented when it is quiet. The line read is the source line of a span without an entry,
the slot line of an ACTIVE span, and none of a span under copy (R30, R116). The position steps over the pool,
and past the last line a pass ends (R114, R121). SWEEP_READ_PRESENT presents the READ once the line is quiet
(R117). The read, or a retry of it after TRANSIENT, completes by its condition, a FAILED line is retried and
then counted, and poisoned when scrub-poison is on, and a writeback DONE ends the line (R117 to R119). A line
that ends is counted, released and cleared, the position advances unless held, and the sweep waits, or stops
when a stop is pending or the bridge is FENCED (R120). That an increment's own events come before CORRECTED and
UNCORRECTABLE and after TRANSIENT, and those of a pass end after the line's, is the model's reading
(notes/assumptions/13.md); the statistics stay below their top (10.md). -/
def Obligations.SweepTakesOrSkips : Prop :=
  ∀ s : State,
    (∀ n : Nat, s.sweep.state = .waiting → s.sweep.timer = some n → s.mode = .online →
      s.sweep.position < s.geom.memSize * 64 → s.geom.inPool (s.sweep.position / 64) = false →
      (s.sweep.stats.skipped ≠ BitVec.allOnes 32 →
        (sweepLine s s.sweep.position = none ∨
          ∃ p, sweepLine s s.sweep.position = some p ∧ (s.locks.locked p = true ∨
            ∃ t ∈ s.hold, ∃ r ∈ s.host.recs[t], r.line.toNat = s.sweep.position)) →
        (s.sweep.position + 1 < s.geom.memSize * 64 → s.geom.inPool ((s.sweep.position + 1) / 64) = false →
          exec .sweepIntervalExpiry s = .next { s with sweep := { s.sweep with
            position := s.sweep.position + 1, timer := some s.sweep.interval
            stats := { s.sweep.stats with skipped := s.sweep.stats.skipped + 1 } } }) ∧
        (∀ v : State, v = advance { s with sweep := { s.sweep with
            stats := { s.sweep.stats with skipped := s.sweep.stats.skipped + 1 } } } →
          exec .sweepIntervalExpiry s = .next { v with sweep := { v.sweep with
            timer := some v.sweep.interval } })) ∧
      (∀ p : PhysLine, sweepLine s s.sweep.position = some p → s.locks.locked p = false →
        (∀ t ∈ s.hold, ∀ r ∈ s.host.recs[t], r.line.toNat ≠ s.sweep.position) →
        s.sweep.request = .absent → ∀ quiet : Bool, quiet = (!hostWriteAt s p && !slotHalfWaits s p) →
        exec .sweepIntervalExpiry s = .next { s with
          sweep := { s.sweep with
            state := .reading, line := some p, timer := none
            request := if quiet then .presented ⟨⟨p, .read⟩, .sweepRead, false⟩ else .absent }
          locks := { s.locks with sweep := some p } })) ∧
    (∀ n : Nat, s.sweep.state = .waiting → s.sweep.timer = some n → s.mode = .online →
      s.geom.inPool (s.sweep.position / 64) = true → ∀ above : Nat,
      above = (s.geom.spareBase + s.geom.spareCount) * 64 →
      (above < s.geom.memSize * 64 → exec .sweepIntervalExpiry s =
        exec .sweepIntervalExpiry { s with sweep := { s.sweep with position := above } }) ∧
      (s.geom.memSize * 64 ≤ above → ∀ v : State, v = passEnd s →
        exec .sweepIntervalExpiry s = .next { v with sweep := { v.sweep with
          timer := some v.sweep.interval } })) ∧
    (∀ p : PhysLine, s.sweep.state = .reading → s.sweep.request = .absent → s.sweep.line = some p →
      hostWriteAt s p = false → slotHalfWaits s p = false →
      exec .sweepReadPresent s = .next { s with sweep := { s.sweep with
        request := .presented ⟨⟨p, .read⟩, .sweepRead, false⟩ } }) ∧
    (∀ line : Nat,
      ((∀ i : Fin 128, ∀ b ∈ s.remap[i], b.span ≠ line / 64) →
        sweepLine s line = some ⟨line / 64, line % 64⟩) ∧
      (∀ (i : Fin 128) (b : Binding), s.remap[i] = some b → b.span = line / 64 →
        (∀ k : Fin 128, ∀ c ∈ s.remap[k], c.span = line / 64 → k = i) →
        sweepLine s line =
          if b.stage = .active then some ⟨s.geom.spareBase + b.slot, line % 64⟩ else none)) ∧
    (∀ next above : Nat, next = s.sweep.position + 1 →
      above = (s.geom.spareBase + s.geom.spareCount) * 64 →
      (s.geom.inPool (next / 64) = false → next < s.geom.memSize * 64 →
        advance s = { s with sweep := { s.sweep with position := next } }) ∧
      (s.geom.inPool (next / 64) = true → above < s.geom.memSize * 64 →
        advance s = { s with sweep := { s.sweep with position := above } }) ∧
      (s.geom.memSize * 64 ≤ (if s.geom.inPool (next / 64) then above else next) → advance s = passEnd s)) ∧
    (∀ fast : Bool, fast = decide (0 < s.params.accelThreshold ∧
        s.params.accelThreshold ≤ s.sweep.stats.fixed.toNat) →
      passEnd s = { offer { kind := .sweepPassDone, source := .sweep
                            span := some (min 4194303 s.sweep.stats.skipped.toNat), offset := none
                            slot := some (min 127 s.sweep.stats.failed.toNat)
                            value := some (min 65534 s.sweep.stats.fixed.toNat) } s with
        health := decay s.params s.health
        sweep := { s.sweep with
          pass := s.sweep.pass + 1
          accelerated := fast
          interval := if fast then max 1 (s.params.sweepInterval / 2) else s.params.sweepInterval
          stats := { linesRead := 0, fixed := 0, failed := 0, skipped := 0, poisonedFound := 0 }
          tableFull := false
          position := firstPosition s.geom } }) ∧
    (∀ (fixed : Bool) (moved : State), s.sweep.stats.linesRead ≠ BitVec.allOnes 32 →
      s.sweep.stats.fixed ≠ BitVec.allOnes 32 →
      ∀ left : State, left = removeHolder .sweep { s with sweep := { s.sweep with
        stats := { s.sweep.stats with
          linesRead := s.sweep.stats.linesRead + 1
          fixed := if fixed then s.sweep.stats.fixed + 1 else s.sweep.stats.fixed }
        line := none, data := none, retry := none, request := .absent } } →
      moved = (if s.sweep.positionHeld then { left with sweep := { left.sweep with positionHeld := false } }
        else advance left) →
      lineEnd fixed s =
        if s.sweep.stopPending = true ∨ s.mode = .fenced then
          { moved with sweep := { moved.sweep with state := .stopped, timer := none, stopPending := false } }
        else
          { moved with sweep := { moved.sweep with
            state := .waiting, timer := some moved.sweep.interval } }) ∧
    (∀ (d : PortTag) (p : PhysLine) (re : Bool) (data : LineData), s.sweep.line = some p →
      s.sweep.stats.failed ≠ BitVec.allOnes 32 → s.sweep.stats.poisonedFound ≠ BitVec.allOnes 32 →
      ∀ freed : State, freed = { s with
        port := { s.port with tags := s.port.tags.set d .free }, sweep := { s.sweep with request := .absent } } →
      let corrected (t : State) : State :=
        let h := healthIncrement p.span false .sweep t
        let h := if s.params.logCorrected then offer (lineEvent .corrected .sweep p none) h else h
        { h with sweep := { h.sweep with
          state := .writingBack, data := some data
          request := .presented ⟨⟨p, .write data fullMask false⟩, .sweepWrite, false⟩ } }
      let found : State := lineEnd false { freed with sweep := { freed.sweep with
        stats := { s.sweep.stats with poisonedFound := s.sweep.stats.poisonedFound + 1 } } }
      let retried (r : Retry) : State := { freed with sweep := { freed.sweep with
        state := .retrying, retry := some r
        request := .presented ⟨⟨p, .read⟩, .sweepRetry, false⟩ } }
      let lost (used : Nat) : State :=
        let h := healthIncrement p.span true .sweep freed
        let h := offer (lineEvent .uncorrectable .sweep p (some used)) { h with sweep := { h.sweep with
          stats := { h.sweep.stats with failed := h.sweep.stats.failed + 1 } } }
        if s.params.scrubPoison then { h with sweep := { h.sweep with
          state := .writingBack
          request := .presented ⟨⟨p, .write zeroLine fullMask true⟩, .sweepWrite, false⟩ } }
        else lineEnd false h
      (s.sweep.state = .reading → s.sweep.retry = none →
        s.port.tags[d] = .inUse ⟨⟨p, .read⟩, .sweepRead, re⟩ →
        (∀ u : State, u = lineEnd false freed →
          settled u = true → exec (.downstreamResponse d .clean data) s = .next u) ∧
        (∀ u : State, u = corrected freed →
          settled u = true → exec (.downstreamResponse d .fixed data) s = .next u) ∧
        (∀ u : State, u = found →
          settled u = true → exec (.downstreamResponse d .poisoned data) s = .next u) ∧
        (s.params.retryLimit = 0 → ∀ u : State, u = lost 0 →
          settled u = true → exec (.downstreamResponse d .failed data) s = .next u) ∧
        (s.params.retryLimit ≠ 0 → ∀ u : State, u = retried ⟨0, s.params.retryLimit⟩ →
          settled u = true → exec (.downstreamResponse d .failed data) s = .next u)) ∧
      (∀ r : Retry, s.sweep.state = .retrying → s.sweep.retry = some r →
        s.port.tags[d] = .inUse ⟨⟨p, .read⟩, .sweepRetry, re⟩ →
        ∀ told : State, told = offer (lineEvent .transient .sweep p (some r.used)) freed →
        (∀ u : State, u = lineEnd false told →
          settled u = true → exec (.downstreamResponse d .clean data) s = .next u) ∧
        (∀ u : State, u = corrected told →
          settled u = true → exec (.downstreamResponse d .fixed data) s = .next u) ∧
        (∀ u : State, u = found →
          settled u = true → exec (.downstreamResponse d .poisoned data) s = .next u) ∧
        (r.used < r.limit → ∀ u : State, u = retried r →
          settled u = true → exec (.downstreamResponse d .failed data) s = .next u) ∧
        (r.used = r.limit → ∀ u : State, u = lost r.used →
          settled u = true → exec (.downstreamResponse d .failed data) s = .next u)) ∧
      (∀ (x : LineData) (m : ByteMask) (mark : Bool), s.sweep.state = .writingBack →
        s.port.tags[d] = .inUse ⟨⟨p, .write x m mark⟩, .sweepWrite, re⟩ → ∀ u : State,
        u = (if mark then lineEnd false (offer (lineEvent .poisonWritten .sweep p none) freed)
          else lineEnd true freed) →
        settled u = true → exec (.downstreamResponse d .done data) s = .next u))

/-! ### The journal -/

/-- JOURNAL_SERVE_REQUEST on an IDLE controller (R131, R132, R133): a record with the store ONLINE is
appended when the half has room, or first compacts into the spare half with the table's snapshot when it is
full; with the store not ONLINE it is reported skipped, and the copy engine goes on (R97, R105, R109). A
geometry write compacts with the store ONLINE (R142) and is reported done without; a detach takes the store
OFFLINE (R140), and is reported done without; an attach waits for a ready store, its request at the head
(R141). -/
def Obligations.RequestsAreServed : Prop :=
  ∀ (s : State) (rest : List JRequest), s.journal.task = .idle →
    let compacts (cause : CompactCause) : State := { s with journal := { s.journal with
      task := .compact cause (if s.journal.live = some .b then .a else .b) .erasing
      snapshot := some (snapshotOf s.remap) } }
    let taken : State := { s with journal := { s.journal with requests := rest } }
    (∀ r : JRecord, s.journal.requests = .record r :: rest → s.journal.store = .online →
      (s.journal.next < 256 → ∀ u : State, u = { s with journal := { s.journal with task := .append } } →
        settled u = true → exec .journalServeRequest s = .next u) ∧
      (256 ≤ s.journal.next → ∀ u : State, u = compacts .append →
        settled u = true → exec .journalServeRequest s = .next u)) ∧
    (∀ (r : JRecord) (j : CopyJob) (b : Binding), s.journal.requests = .record r :: rest →
      s.journal.store ≠ .online → s.copy.job = some j → s.remap[j.entry] = some b →
      (r.kind = .cancelRec → ∀ u : State, u = { taken with copy := { s.copy with cancelDone := true } } →
        settled u = true → exec .journalServeRequest s = .next u) ∧
      (r.kind = .assignRec → b.stage = .committing → ∀ u : State,
        u = { offer (spanEvent .retireDone .copy j.span (some j.slot) (some b.poisoned)) taken with
          remap := s.remap.set j.entry (some { b with stage := .active, journaled := false })
          health := removeRetired j.span s.health
          copy := idleCopy s.copy.exhausted } →
        settled u = true → exec .journalServeRequest s = .next u) ∧
      (r.kind = .beginRec → s.copy.state = .beginning → s.copy.request = .absent →
        hostWriteAt s ⟨j.span, s.copy.cursor⟩ = false → s.locks.sweep ≠ some ⟨j.span, s.copy.cursor⟩ →
        ∀ u : State, u = { taken with
          copy := { s.copy with
            state := .lineRead
            request := .presented ⟨⟨⟨j.span, s.copy.cursor⟩, .read⟩, .copyRead, false⟩ }
          locks := { s.locks with copy := some ⟨j.span, s.copy.cursor⟩ } } →
        settled u = true → exec .journalServeRequest s = .next u)) ∧
    (s.journal.requests = .geometry :: rest →
      (s.journal.store ≠ .online → ∀ u : State, u = { taken with link := replied .ok [] } →
        settled u = true → exec .journalServeRequest s = .next u) ∧
      (s.journal.store = .online → ∀ u : State, u = compacts .geometry →
        settled u = true → exec .journalServeRequest s = .next u)) ∧
    (s.journal.requests = .detach :: rest →
      (s.journal.store = .online → ∀ u : State,
        u = { s with
          journal := { s.journal with requests := rest, store := .offline }
          remap := journalFlags false s.remap, link := replied .ok [] } →
        settled u = true → exec .journalServeRequest s = .next u) ∧
      (s.journal.store ≠ .online → ∀ u : State, u = { taken with link := replied .ok [] } →
        settled u = true → exec .journalServeRequest s = .next u)) ∧
    (s.journal.requests = .attach :: rest → ∀ u : State,
      u = { s with journal := { s.journal with task := .attachReady } } →
      settled u = true → exec .journalServeRequest s = .next u)

/-- PAGE_PROGRAM_DONE verifies an append (R127, R132): the next position rises by one and the request leaves
the list; after BEGIN the copy engine takes line 0 (R97), or in ABORTING its step in flight ends with the CANCEL
record requested (R108, R109; the line data and retry fields go then by the model's choice,
notes/assumptions/26.md); after ASSIGN the entry is ACTIVE and journaled, the span's HOST health entry is gone and
RETIRE_DONE is offered (R18, R105), after CANCEL the abort is free to end. -/
def Obligations.AppendsAreVerified : Prop :=
  ∀ (s : State) (r : JRecord) (j : CopyJob) (b : Binding), s.journal.task = .append →
    s.journal.requests = [.record r] → s.copy.job = some j → s.remap[j.entry] = some b →
    ∀ done : State, done = { s with journal := { s.journal with
      task := .idle, requests := [], next := s.journal.next + 1 } } →
    (r.kind = .beginRec → s.copy.state = .beginning → s.copy.request = .absent →
      hostWriteAt s ⟨j.span, s.copy.cursor⟩ = false → s.locks.sweep ≠ some ⟨j.span, s.copy.cursor⟩ →
      ∀ u : State, u = { done with
        copy := { s.copy with
          state := .lineRead
          request := .presented ⟨⟨⟨j.span, s.copy.cursor⟩, .read⟩, .copyRead, false⟩ }
        locks := { s.locks with copy := some ⟨j.span, s.copy.cursor⟩ } } →
      settled u = true →
      exec (.pageProgramDone (recordBytes s.journal.next r)) s = .next u) ∧
    (r.kind = .beginRec → s.copy.state = .aborting → s.journal.store = .online → s.journal.next < 255 →
      ∀ left : State, left = removeHolder .copy { done with copy := { s.copy with
        data := none, writeKind := none, retry := none, stepInFlight := false, request := .absent } } →
      ∀ u : State, u = { left with journal := done.journal.asked ⟨.cancelRec, j.span, j.slot, 0⟩ } →
      settled u = true →
      exec (.pageProgramDone (recordBytes s.journal.next r)) s = .next u) ∧
    (r.kind = .assignRec → b.stage = .committing → ∀ u : State,
      u = { offer (spanEvent .retireDone .copy j.span (some j.slot) (some b.poisoned)) done with
        remap := s.remap.set j.entry (some { b with stage := .active, journaled := true })
        health := removeRetired j.span s.health
        copy := idleCopy s.copy.exhausted } →
      settled u = true →
      exec (.pageProgramDone (recordBytes s.journal.next r)) s = .next u) ∧
    (r.kind = .cancelRec → ∀ u : State, u = { done with copy := { s.copy with cancelDone := true } } →
      settled u = true →
      exec (.pageProgramDone (recordBytes s.journal.next r)) s = .next u)

/-- A program that exceeds its limit or reads back another value, an erase that exceeds its limit, an
attach whose store is never ready, and a compaction that has no higher epoch to write, are store faults (R127,
R134, R139, R141): the store is OFFLINE, no ACTIVE entry is journaled (R24), and the STORE flag is set
(R151). The STORE_FAULT event gives the operation (Table 9-5), plus 16 for a mismatch, and its half. The controller
is IDLE with no snapshot, and its live half, epoch and next position stay; the record of an append, or of the append
that began a compaction, is reported skipped (R97, R105, R109), a geometry write or an attach is answered OK (R141,
R142), start-up ends with the bridge ONLINE, and CLEAN_START is answered OK (R3, R135, R138). What a waiting request
makes follow in the same step is left to the states in which nothing is due. -/
def Obligations.StoreFaultsTakeTheStoreOffline : Prop :=
  ∀ (s : State),
    let faulted (t : State) : Prop := t.journal.store = .offline ∧ t.events.flags.getLsbD 4 = true ∧
      ∀ i : Fin 128, ∀ b ∈ t.remap[i], b.stage = .active → b.journaled = false
    let program (v : Nat) (h : Option HalfId) : Prop :=
      s.journal.task = .append ∧ v = 1 ∧ h = s.journal.live ∨
      (∃ c x n, s.journal.task = .compact c x (.snapshot n) ∧ v = 3 ∧ h = some x) ∨
      (∃ c x, s.journal.task = .compact c x .header ∧ v = 4 ∧ h = some x) ∨
      (∃ w r, s.journal.task = .reconcile w r ∧ v = 3 ∧ h = s.journal.live) ∨
      (s.journal.task = .initHeader ∨ s.journal.task = .cleanHeader) ∧ v = 5 ∧ h = some .a
    let erase (v : Nat) (h : Option HalfId) : Prop :=
      (∃ c x, s.journal.task = .compact c x .erasing ∧ v = 2 ∧ h = some x) ∨
      s.journal.task = .initErase ∧ v = 5 ∧ h = some .a ∨
      ∃ x l, s.journal.task = .cleanErase x l ∧ v = 5 ∧ h = some x
    let finds (c : Instr) (v : Nat) (h : Option HalfId) : Prop :=
      c = .programLimitExpiry ∧ programmed s ≠ none ∧ program v h ∨
      (∃ back v' half pos bytes, c = .pageProgramDone back ∧ programmed s = some (half, pos, bytes) ∧
        back ≠ bytes ∧ program v' h ∧ v = v' + 16) ∨
      c = .eraseLimitExpiry ∧ erase v h ∨
      c = .attachReadyExpiry ∧ s.journal.task = .attachReady ∧ v = 6 ∧ h = none ∨
      (∃ cause x, c = .sectorEraseDone ∧ s.journal.task = .compact cause x .erasing ∧
        s.journal.snapshot = some [] ∧ s.journal.epoch = 4294967295 ∧ v = 4 ∧ h = some x) ∨
      ∃ cause x l r, c = .pageProgramDone (recordBytes (l.length + 1) r) ∧
        s.journal.task = .compact cause x (.snapshot l.length) ∧ s.journal.snapshot = some (l ++ [r]) ∧
        s.journal.epoch = 4294967295 ∧ v = 4 ∧ h = some x
    (∀ (h : Option HalfId) (pos : Nat) (bytes : List Byte), programmed s = some (h, pos, bytes) →
      (∃ t, exec .programLimitExpiry s = .next t ∧ faulted t) ∧
      (∀ back : List Byte, back ≠ bytes → ∃ t, exec (.pageProgramDone back) s = .next t ∧ faulted t)) ∧
    (erasing s.journal.task ≠ none → ∃ t, exec .eraseLimitExpiry s = .next t ∧ faulted t) ∧
    (s.journal.task = .attachReady → ∃ t, exec .attachReadyExpiry s = .next t ∧ faulted t) ∧
    (∀ (c : CompactCause) (h : HalfId), s.journal.task = .compact c h .erasing → s.journal.snapshot = some [] →
      s.journal.epoch = 4294967295 → ∃ t, exec .sectorEraseDone s = .next t ∧ faulted t) ∧
    (∀ (c : Instr) (v : Nat) (h : Option HalfId), finds c v h → ∀ told base : State,
      told = offer { kind := .storeFault, source := .journal, span := none
                     offset := h.map (fun x => if x = .a then 0 else 1), slot := none, value := some v } s →
      base = { told with
        remap := journalFlags false s.remap
        journal := { s.journal with store := .offline, task := .idle, snapshot := none } } →
      (∃ t, exec c s = .next t ∧ faulted t ∧ told.events.records <+: t.events.records) ∧
      (∀ (r : JRecord) (rest : List JRequest) (j : CopyJob) (b : Binding), s.journal.task = .append ∨
          (∃ x st, s.journal.task = .compact .append x st) → s.journal.requests = .record r :: rest →
        s.copy.job = some j → s.remap[j.entry] = some b →
        ∀ taken : State, taken = { base with journal := { base.journal with requests := rest } } →
        (r.kind = .cancelRec → ∀ u : State, u = { taken with copy := { s.copy with cancelDone := true } } →
          settled u = true → exec c s = .next u) ∧
        (r.kind = .assignRec → b.stage = .committing → ∀ u : State,
          u = { offer (spanEvent .retireDone .copy j.span (some j.slot) (some b.poisoned)) taken with
            remap := base.remap.set j.entry (some { b with stage := .active, journaled := false })
            health := removeRetired j.span s.health
            copy := idleCopy s.copy.exhausted } →
          settled u = true → exec c s = .next u) ∧
        (r.kind = .beginRec → s.copy.state = .beginning → s.copy.request = .absent →
          hostWriteAt s ⟨j.span, s.copy.cursor⟩ = false → s.locks.sweep ≠ some ⟨j.span, s.copy.cursor⟩ →
          ∀ u : State, u = { taken with
            copy := { s.copy with
              state := .lineRead
              request := .presented ⟨⟨⟨j.span, s.copy.cursor⟩, .read⟩, .copyRead, false⟩ }
            locks := { s.locks with copy := some ⟨j.span, s.copy.cursor⟩ } } →
          settled u = true → exec c s = .next u)) ∧
      (∀ (q : JRequest) (rest : List JRequest), s.journal.requests = q :: rest →
        s.journal.task = .attachReady ∨ (∃ w r, s.journal.task = .reconcile w r) ∨
          (∃ cause x st, s.journal.task = .compact cause x st ∧ cause ≠ .append) → ∀ u : State,
        u = { base with journal := { base.journal with requests := rest }, link := replied .ok [] } →
        settled u = true → exec c s = .next u) ∧
      (s.mode = .startup → s.sweep.state = .waiting → ∀ up : State,
        up = { base with mode := .online, sweep := { s.sweep with timer := some s.sweep.interval } } →
        (s.journal.task = .initErase ∨ s.journal.task = .initHeader → settled up = true →
          exec c s = .next up) ∧
        ((∃ x l, s.journal.task = .cleanErase x l) ∨ s.journal.task = .cleanHeader → ∀ u : State,
          u = { up with link := replied .ok [] } → settled u = true → exec c s = .next u)))

/-- Start-up, cleaning, compaction and attach go on by the flash's completions (R133, R135, R136, R138,
R141): an erase done leads to the first snapshot record, to the header, or to the next erase; two header
positions read choose the live half and its geometry, or show a blank store; an empty position ends replay
with the store and the bridge ONLINE; a ready store lets an attach read the headers. A program verified leads
to the next snapshot record, to the header, and from the header to the new live half with JOURNAL_COMPACTED and
what the compaction was begun for; a start-up header puts the store and the bridge ONLINE. The headers read by an
attach name its target, those read by a cleaning the order of its erases, the half not live first. An attach
goes on with one reconciliation record after another, an ASSIGN for an ACTIVE entry that has none or a CANCEL
for a BEGIN left open, until none is missing, and the store is ONLINE with every ACTIVE entry journaled. How
many positions one row may bring, and which of several missing records comes first, are the model's choice
(notes/assumptions/12.md and 17.md). -/
def Obligations.StoreWorkGoesOn : Prop :=
  ∀ s : State,
    let goesOn (t : Task) : State := { s with journal := { s.journal with task := t } }
    (∀ (c : CompactCause) (h : HalfId) (r : JRecord) (rs : List JRecord),
      s.journal.task = .compact c h .erasing → s.journal.snapshot = some (r :: rs) → ∀ u : State,
      u = { s with journal := { s.journal with task := .compact c h (.snapshot 0) } } →
      settled u = true → exec .sectorEraseDone s = .next u) ∧
    (∀ (c : CompactCause) (h : HalfId), s.journal.task = .compact c h .erasing →
      s.journal.snapshot = some [] → s.journal.epoch ≠ 4294967295 → ∀ u : State,
      u = { s with journal := { s.journal with task := .compact c h .header } } →
      settled u = true → exec .sectorEraseDone s = .next u) ∧
    (s.journal.task = .initErase → ∀ u : State,
      u = { s with journal := { s.journal with task := .initHeader } } →
      settled u = true → exec .sectorEraseDone s = .next u) ∧
    (∀ (h : HalfId) (l : HalfId), s.journal.task = .cleanErase h (some l) → ∀ u : State,
      u = { s with journal := { s.journal with task := .cleanErase l none } } →
      settled u = true → exec .sectorEraseDone s = .next u) ∧
    (∀ h : HalfId, s.journal.task = .cleanErase h none → ∀ u : State, u = goesOn .cleanHeader →
      settled u = true → exec .sectorEraseDone s = .next u) ∧
    (∀ (a b : List Byte) (hd : Header), s.journal.task = .replayHeaders none → validHeader a = some hd →
      (isEmptyPosition b = true ∨ ∃ g, validHeader b = some g ∧ g.epoch ≤ hd.epoch) → ∀ u : State,
      u = { s with
        geom := hd.geom
        journal := { s.journal with live := some .a, epoch := hd.epoch, task := .replayRecords 1 [] } } →
      settled u = true → exec (.journalReadDone [a, b]) s = .next u) ∧
    (∀ a b : List Byte, s.journal.task = .replayHeaders none → isEmptyPosition a = true →
      isEmptyPosition b = true → ∀ u : State,
      u = { s with journal := { s.journal with task := .initErase } } →
      settled u = true → exec (.journalReadDone [a, b]) s = .next u) ∧
    (∀ (pos : Nat) (e : List Byte), s.journal.task = .replayRecords pos [] → isEmptyPosition e = true →
      s.journal.live ≠ none → s.journal.store = .offline → s.mode = .startup → s.sweep.state = .waiting →
      ∀ u : State,
      u = { s with
        mode := .online
        journal := { s.journal with task := .idle, store := .online, next := pos }
        sweep := { s.sweep with timer := some s.sweep.interval } } →
      settled u = true → exec (.journalReadDone [e]) s = .next u) ∧
    (s.journal.task = .attachReady →
      exec .storeReady s = .next { s with journal := { s.journal with task := .attachHeaders none } }) ∧
    (∀ (c : CompactCause) (h : HalfId) (i : Nat) (l : List JRecord) (r : JRecord),
      s.journal.task = .compact c h (.snapshot i) → s.journal.snapshot = some l → l[i]? = some r →
      (i + 1 < l.length → ∀ u : State, u = goesOn (.compact c h (.snapshot (i + 1))) →
        settled u = true → exec (.pageProgramDone (recordBytes (i + 1) r)) s = .next u) ∧
      (i + 1 = l.length → s.journal.epoch ≠ 4294967295 → ∀ u : State, u = goesOn (.compact c h .header) →
        settled u = true → exec (.pageProgramDone (recordBytes (i + 1) r)) s = .next u)) ∧
    (∀ (c : CompactCause) (h : HalfId) (l : List JRecord) (q : JRequest) (rest : List JRequest),
      s.journal.task = .compact c h .header → s.journal.snapshot = some l → s.journal.requests = q :: rest →
      ∀ (header : List Byte) (done : State),
      header = headerBytes { epoch := s.journal.epoch + 1, geom := s.geom } →
      done = { offer { kind := .journalCompacted, source := .journal, span := none
                       offset := some (if h = .a then 0 else 1), slot := none, value := some l.length } s with
        journal := { s.journal with
          live := some h, epoch := s.journal.epoch + 1, next := l.length + 1, snapshot := none } } →
      (c = .append → ∀ u : State, u = { done with journal := { done.journal with task := .append } } →
        settled u = true → exec (.pageProgramDone header) s = .next u) ∧
      (c = .geometry → ∀ u : State, u = { done with
          journal := { done.journal with task := .idle, requests := rest }, link := replied .ok [] } →
        settled u = true → exec (.pageProgramDone header) s = .next u) ∧
      (c = .attach → ∀ r : JRecord, reconcileNeed s.remap l = some r → ∀ u : State,
        u = { done with journal := { done.journal with task := .reconcile l r } } →
        settled u = true → exec (.pageProgramDone header) s = .next u) ∧
      (c = .attach → reconcileNeed s.remap l = none → ∀ u : State,
        u = { done with
          journal := { done.journal with task := .idle, store := .online, requests := rest }
          remap := journalFlags true s.remap, link := replied .ok [] } →
        settled u = true → exec (.pageProgramDone header) s = .next u)) ∧
    (∀ (w : List JRecord) (r : JRecord) (q : JRequest) (rest : List JRequest),
      s.journal.task = .reconcile w r → s.journal.requests = q :: rest →
      (∀ r' : JRecord, reconcileNeed s.remap (w ++ [r]) = some r' → ∀ u : State,
        u = { s with journal := { s.journal with
          task := .reconcile (w ++ [r]) r', next := s.journal.next + 1 } } →
        settled u = true → exec (.pageProgramDone (recordBytes s.journal.next r)) s = .next u) ∧
      (reconcileNeed s.remap (w ++ [r]) = none → ∀ u : State,
        u = { s with
          journal := { s.journal with
            task := .idle, store := .online, requests := rest, next := s.journal.next + 1 }
          remap := journalFlags true s.remap, link := replied .ok [] } →
        settled u = true → exec (.pageProgramDone (recordBytes s.journal.next r)) s = .next u)) ∧
    (∀ (w : List JRecord) (need : Option JRecord), need = reconcileNeed s.remap w →
      let assigned (b : Binding) : Prop :=
        ∃ a ∈ w, a.kind = .assignRec ∧ a.span = b.span ∧ a.slot = b.slot
      let left (o : JRecord) : Prop := ∃ pre post, w = pre ++ o :: post ∧ o.kind = .beginRec ∧
        (∀ a ∈ post, a.span = o.span → a.kind = .beginRec) ∧
        ∀ i : Fin 128, ∀ b ∈ s.remap[i], b.span = o.span → b.stage = .active
      (need = none ↔ (∀ i : Fin 128, ∀ b ∈ s.remap[i], b.stage = .active → assigned b) ∧ ∀ o, ¬ left o) ∧
      (∀ r : JRecord, need = some r →
        (∃ i : Fin 128, ∃ b ∈ s.remap[i], b.stage = .active ∧ ¬ assigned b ∧
          r = { kind := .assignRec, span := b.span, slot := b.slot, poisoned := b.poisoned }) ∨
        ∃ o, left o ∧ r = { kind := .cancelRec, span := o.span, slot := o.slot, poisoned := 0 })) ∧
    (∀ (a b : List Byte) (live : Option (HalfId × Header)) (target : HalfId), LiveHalf a b live →
      target = (match live with | some (.b, _) => .a | _ => .b) →
      (s.journal.task = .attachHeaders none → ∀ u : State,
        u = { s with journal := { s.journal with
          live := live.map Prod.fst, epoch := (live.map (fun x => x.2.epoch)).getD 0
          task := .compact .attach target .erasing, snapshot := some (snapshotOf s.remap) } } →
        settled u = true → exec (.journalReadDone [a, b]) s = .next u) ∧
      (s.journal.task = .cleanHeaders none → ∀ u : State,
        u = { s with journal := { s.journal with
          live := live.map Prod.fst, epoch := (live.map (fun x => x.2.epoch)).getD 0
          task := .cleanErase target (some (if target = .a then .b else .a)) } } →
        settled u = true → exec (.journalReadDone [a, b]) s = .next u)) ∧
    (∀ header : List Byte, header = headerBytes { epoch := 1, geom := defaultGeometry } →
      s.journal.store = .offline → s.mode = .startup → s.sweep.state = .waiting → ∀ done : State,
      done = { s with
        mode := .online
        journal := { s.journal with
          task := .idle, store := .online, live := some .a, epoch := 1, next := 1 }
        sweep := { s.sweep with timer := some s.sweep.interval } } →
      (s.journal.task = .initHeader → settled done = true → exec (.pageProgramDone header) s = .next done) ∧
      (s.journal.task = .cleanHeader → ∀ u : State, u = { done with link := replied .ok [] } →
        settled u = true → exec (.pageProgramDone header) s = .next u))

/-- Records and headers survive the flash (R128, R164, Table 11-10): a record programmed at its position is
good there and reads back as itself; a header of a valid geometry and an epoch of at least 1 reads back as
itself; neither reads as empty, and a record is torn at any other position. -/
def Obligations.RecordsReadBack : Prop :=
  (∀ (pos : Nat) (r : JRecord), pos < 256 → r.span < 4194304 → r.slot < 256 → r.poisoned < 256 →
    (r.kind ≠ .assignRec → r.poisoned = 0) →
    (recordBytes pos r).length = 16 ∧ isEmptyPosition (recordBytes pos r) = false ∧
    goodRecord pos (recordBytes pos r) = some r ∧
    ∀ q : Nat, q ≠ pos → q < 256 → goodRecord q (recordBytes pos r) = none) ∧
  (∀ h : Header, 1 ≤ h.epoch → h.epoch ≤ 4294967295 → h.geom.valid = true →
    (headerBytes h).length = 16 ∧ isEmptyPosition (headerBytes h) = false ∧
    validHeader (headerBytes h) = some h)

/-! ### Replay -/

/-- Replay (R22, R135, R136, R137). The headers read choose the live half, and a damaged one is reported; a
torn record is reported and skipped; an ASSIGN that passes the checks of R22 is restored ACTIVE in the lowest
FREE entry, and one that fails is reported with the first check it fails; a BEGIN joins the open list, or
replaces the slot of its span's pair, or is reported when the list is full; ASSIGN and CANCEL close their
span's pair. After an empty position, or once position 255 is taken (good or torn, with next position 256), each
open pair is offered to the Retirement Queue in order, with COPY_RESUMED or the conflict of the check that refused
it, and the store and the bridge are ONLINE; what else follows in that step is `settle` (notes/assumptions/5.md).
That one row brings both headers, half A's first, so that RECORD_TORN of A comes before that of B, is the model's
choice (notes/assumptions/12.md), and so is that a span, slot or count out of range is kept as read (23.md). -/
def Obligations.ReplayReadsRecords : Prop :=
  ∀ s : State,
    let taken (r : JRecord) (l l' : List OpenPair) (told : State) : Prop :=
      let bound : Prop := ∃ i : Fin 128, ∃ b ∈ s.remap[i], b.span = r.span
      let held : Prop := ∃ i : Fin 128, ∃ b ∈ s.remap[i], b.slot = r.slot
      let closed : List OpenPair := l.filter (fun p => p.span != r.span)
      (∃ e : Fin 128, r.kind = .assignRec ∧ s.geom.usable r.span = true ∧ r.slot < s.geom.spareCount ∧
        ¬ bound ∧ ¬ held ∧ s.remap[e] = none ∧ (∀ k : Fin 128, k < e → s.remap[k] ≠ none) ∧ l' = closed ∧
        told = { s with remap := s.remap.set e (some
          { stage := .active, span := r.span, slot := r.slot, copied := 64, origin := .restored
            journaled := true, poisoned := r.poisoned }) }) ∨
      (∃ cause : Nat, r.kind = .assignRec ∧
        (cause = 1 ∧ s.geom.usable r.span = false ∨
          s.geom.usable r.span = true ∧ (cause = 2 ∧ s.geom.spareCount ≤ r.slot ∨
            r.slot < s.geom.spareCount ∧ (cause = 3 ∧ bound ∨ ¬ bound ∧ cause = 4 ∧ held))) ∧ l' = closed ∧
        told = offer (conflictEvent r.span r.slot cause) s) ∨
      r.kind = .beginRec ∧ (∃ p ∈ l, p.span = r.span) ∧ told = s ∧
        l' = l.map (fun p => if p.span = r.span then { p with slot := r.slot } else p) ∨
      r.kind = .beginRec ∧ (∀ p ∈ l, p.span ≠ r.span) ∧
        (l.length < 8 ∧ l' = l ++ [⟨r.span, r.slot⟩] ∧ told = s ∨
          8 ≤ l.length ∧ l' = l ∧ told = offer (conflictEvent r.span r.slot 5) s) ∨
      r.kind = .cancelRec ∧ l' = closed ∧ told = s
    (∀ (a b : List Byte) (live : Option (HalfId × Header)), s.journal.task = .replayHeaders none →
      LiveHalf a b live → ∀ t told : State,
      t = (if damagedHeader a then offer (journalEvent .recordTorn (some .a) 0) s else s) →
      told = (if damagedHeader b then offer (journalEvent .recordTorn (some .b) 0) t else t) →
      (live = none → ∀ u : State, u = { told with journal := { s.journal with task := .initErase } } →
        settled u = true → exec (.journalReadDone [a, b]) s = .next u) ∧
      (∀ (h : HalfId) (hd : Header), live = some (h, hd) → ∀ u : State,
        u = { told with
          geom := hd.geom
          journal := { s.journal with live := some h, epoch := hd.epoch, task := .replayRecords 1 [] } } →
        settled u = true → exec (.journalReadDone [a, b]) s = .next u)) ∧
    (∀ (pos : Nat) (l : List OpenPair) (bytes : List Byte), s.journal.task = .replayRecords pos l → pos < 255 →
      isEmptyPosition bytes = false →
      let next (l' : List OpenPair) (t : State) : State :=
        { t with journal := { s.journal with task := .replayRecords (pos + 1) l' } }
      (goodRecord pos bytes = none → ∀ u : State,
        u = next l (offer (journalEvent .recordTorn s.journal.live pos) s) →
        settled u = true → exec (.journalReadDone [bytes]) s = .next u) ∧
      (∀ (r : JRecord) (l' : List OpenPair) (told : State), goodRecord pos bytes = some r → taken r l l' told →
        ∀ u : State, u = next l' told → settled u = true → exec (.journalReadDone [bytes]) s = .next u)) ∧
    (∀ (pos stop : Nat) (l l' : List OpenPair) (bytes : List Byte) (told : State),
      s.journal.task = .replayRecords pos l →
      (isEmptyPosition bytes = true ∧ stop = pos ∧ l' = l ∧ told = s ∨
        pos = 255 ∧ isEmptyPosition bytes = false ∧ stop = 256 ∧
          (goodRecord 255 bytes = none ∧ l' = l ∧ told = offer (journalEvent .recordTorn s.journal.live 255) s ∨
            ∃ r, goodRecord 255 bytes = some r ∧ taken r l l' told)) →
      s.journal.live ≠ none → s.journal.store = .offline → s.mode = .startup → s.sweep.state = .waiting →
      ∀ v : State, v = l'.foldl (fun t p => offerResumed p t)
        { told with journal := { s.journal with task := .idle, next := stop } } →
      exec (.journalReadDone [bytes]) s = .next (settle { v with
        mode := .online
        journal := { v.journal with store := .online }
        sweep := { v.sweep with timer := some v.sweep.interval } })) ∧
    (∀ p : OpenPair,
      let queued : Prop := (∃ q ∈ s.retire, q.span = p.span) ∨
        ∃ i : Fin 128, ∃ b ∈ s.remap[i], b.span = p.span
      (s.geom.usable p.span = false → offerResumed p s = offer (conflictEvent p.span p.slot 6) s) ∧
      (s.geom.usable p.span = true → queued → offerResumed p s = offer (conflictEvent p.span p.slot 7) s) ∧
      (s.geom.usable p.span = true → ¬ queued → 8 ≤ s.retire.length →
        offerResumed p s = offer (conflictEvent p.span p.slot 8) s) ∧
      (s.geom.usable p.span = true → ¬ queued → s.retire.length < 8 →
        offerResumed p s =
          { offer (spanEvent .copyResumed .journal p.span (some p.slot) (some (s.retire.length + 1))) s with
            retire := s.retire ++ [⟨p.span, .resumed⟩] }))
end

