-- ==== Sys2Proof/Laws/State.lean ====
section
/-! SUPPORT. One lemma per field per update of State, each true by rfl, so that no later proof unfolds a
record update. -/

namespace Sys2Proof.Machine

variable (s : State)

@[simp] theorem State.setMode_mode (v : Mode) : (s.setMode v).mode = v := rfl
@[simp] theorem State.setMode_pins (v : Mode) : (s.setMode v).pins = s.pins := rfl
@[simp] theorem State.setMode_geom (v : Mode) : (s.setMode v).geom = s.geom := rfl
@[simp] theorem State.setMode_params (v : Mode) : (s.setMode v).params = s.params := rfl
@[simp] theorem State.setMode_remap (v : Mode) : (s.setMode v).remap = s.remap := rfl
@[simp] theorem State.setMode_host (v : Mode) : (s.setMode v).host = s.host := rfl
@[simp] theorem State.setMode_locks (v : Mode) : (s.setMode v).locks = s.locks := rfl
@[simp] theorem State.setMode_hold (v : Mode) : (s.setMode v).hold = s.hold := rfl
@[simp] theorem State.setMode_port (v : Mode) : (s.setMode v).port = s.port := rfl
@[simp] theorem State.setMode_health (v : Mode) : (s.setMode v).health = s.health := rfl
@[simp] theorem State.setMode_retire (v : Mode) : (s.setMode v).retire = s.retire := rfl
@[simp] theorem State.setMode_copy (v : Mode) : (s.setMode v).copy = s.copy := rfl
@[simp] theorem State.setMode_sweep (v : Mode) : (s.setMode v).sweep = s.sweep := rfl
@[simp] theorem State.setMode_journal (v : Mode) : (s.setMode v).journal = s.journal := rfl
@[simp] theorem State.setMode_events (v : Mode) : (s.setMode v).events = s.events := rfl
@[simp] theorem State.setMode_link (v : Mode) : (s.setMode v).link = s.link := rfl
@[simp] theorem State.setMode_stats (v : Mode) : (s.setMode v).stats = s.stats := rfl
@[simp] theorem State.setMode_pending (v : Mode) : (s.setMode v).pending = s.pending := rfl

@[simp] theorem State.setPins_mode (v : Pins) : (s.setPins v).mode = s.mode := rfl
@[simp] theorem State.setPins_pins (v : Pins) : (s.setPins v).pins = v := rfl
@[simp] theorem State.setPins_geom (v : Pins) : (s.setPins v).geom = s.geom := rfl
@[simp] theorem State.setPins_params (v : Pins) : (s.setPins v).params = s.params := rfl
@[simp] theorem State.setPins_remap (v : Pins) : (s.setPins v).remap = s.remap := rfl
@[simp] theorem State.setPins_host (v : Pins) : (s.setPins v).host = s.host := rfl
@[simp] theorem State.setPins_locks (v : Pins) : (s.setPins v).locks = s.locks := rfl
@[simp] theorem State.setPins_hold (v : Pins) : (s.setPins v).hold = s.hold := rfl
@[simp] theorem State.setPins_port (v : Pins) : (s.setPins v).port = s.port := rfl
@[simp] theorem State.setPins_health (v : Pins) : (s.setPins v).health = s.health := rfl
@[simp] theorem State.setPins_retire (v : Pins) : (s.setPins v).retire = s.retire := rfl
@[simp] theorem State.setPins_copy (v : Pins) : (s.setPins v).copy = s.copy := rfl
@[simp] theorem State.setPins_sweep (v : Pins) : (s.setPins v).sweep = s.sweep := rfl
@[simp] theorem State.setPins_journal (v : Pins) : (s.setPins v).journal = s.journal := rfl
@[simp] theorem State.setPins_events (v : Pins) : (s.setPins v).events = s.events := rfl
@[simp] theorem State.setPins_link (v : Pins) : (s.setPins v).link = s.link := rfl
@[simp] theorem State.setPins_stats (v : Pins) : (s.setPins v).stats = s.stats := rfl
@[simp] theorem State.setPins_pending (v : Pins) : (s.setPins v).pending = s.pending := rfl

@[simp] theorem State.setGeom_mode (v : Geometry) : (s.setGeom v).mode = s.mode := rfl
@[simp] theorem State.setGeom_pins (v : Geometry) : (s.setGeom v).pins = s.pins := rfl
@[simp] theorem State.setGeom_geom (v : Geometry) : (s.setGeom v).geom = v := rfl
@[simp] theorem State.setGeom_params (v : Geometry) : (s.setGeom v).params = s.params := rfl
@[simp] theorem State.setGeom_remap (v : Geometry) : (s.setGeom v).remap = s.remap := rfl
@[simp] theorem State.setGeom_host (v : Geometry) : (s.setGeom v).host = s.host := rfl
@[simp] theorem State.setGeom_locks (v : Geometry) : (s.setGeom v).locks = s.locks := rfl
@[simp] theorem State.setGeom_hold (v : Geometry) : (s.setGeom v).hold = s.hold := rfl
@[simp] theorem State.setGeom_port (v : Geometry) : (s.setGeom v).port = s.port := rfl
@[simp] theorem State.setGeom_health (v : Geometry) : (s.setGeom v).health = s.health := rfl
@[simp] theorem State.setGeom_retire (v : Geometry) : (s.setGeom v).retire = s.retire := rfl
@[simp] theorem State.setGeom_copy (v : Geometry) : (s.setGeom v).copy = s.copy := rfl
@[simp] theorem State.setGeom_sweep (v : Geometry) : (s.setGeom v).sweep = s.sweep := rfl
@[simp] theorem State.setGeom_journal (v : Geometry) : (s.setGeom v).journal = s.journal := rfl
@[simp] theorem State.setGeom_events (v : Geometry) : (s.setGeom v).events = s.events := rfl
@[simp] theorem State.setGeom_link (v : Geometry) : (s.setGeom v).link = s.link := rfl
@[simp] theorem State.setGeom_stats (v : Geometry) : (s.setGeom v).stats = s.stats := rfl
@[simp] theorem State.setGeom_pending (v : Geometry) : (s.setGeom v).pending = s.pending := rfl

@[simp] theorem State.setParams_mode (v : Params) : (s.setParams v).mode = s.mode := rfl
@[simp] theorem State.setParams_pins (v : Params) : (s.setParams v).pins = s.pins := rfl
@[simp] theorem State.setParams_geom (v : Params) : (s.setParams v).geom = s.geom := rfl
@[simp] theorem State.setParams_params (v : Params) : (s.setParams v).params = v := rfl
@[simp] theorem State.setParams_remap (v : Params) : (s.setParams v).remap = s.remap := rfl
@[simp] theorem State.setParams_host (v : Params) : (s.setParams v).host = s.host := rfl
@[simp] theorem State.setParams_locks (v : Params) : (s.setParams v).locks = s.locks := rfl
@[simp] theorem State.setParams_hold (v : Params) : (s.setParams v).hold = s.hold := rfl
@[simp] theorem State.setParams_port (v : Params) : (s.setParams v).port = s.port := rfl
@[simp] theorem State.setParams_health (v : Params) : (s.setParams v).health = s.health := rfl
@[simp] theorem State.setParams_retire (v : Params) : (s.setParams v).retire = s.retire := rfl
@[simp] theorem State.setParams_copy (v : Params) : (s.setParams v).copy = s.copy := rfl
@[simp] theorem State.setParams_sweep (v : Params) : (s.setParams v).sweep = s.sweep := rfl
@[simp] theorem State.setParams_journal (v : Params) : (s.setParams v).journal = s.journal := rfl
@[simp] theorem State.setParams_events (v : Params) : (s.setParams v).events = s.events := rfl
@[simp] theorem State.setParams_link (v : Params) : (s.setParams v).link = s.link := rfl
@[simp] theorem State.setParams_stats (v : Params) : (s.setParams v).stats = s.stats := rfl
@[simp] theorem State.setParams_pending (v : Params) : (s.setParams v).pending = s.pending := rfl

@[simp] theorem State.setRemap_mode (v : Remap) : (s.setRemap v).mode = s.mode := rfl
@[simp] theorem State.setRemap_pins (v : Remap) : (s.setRemap v).pins = s.pins := rfl
@[simp] theorem State.setRemap_geom (v : Remap) : (s.setRemap v).geom = s.geom := rfl
@[simp] theorem State.setRemap_params (v : Remap) : (s.setRemap v).params = s.params := rfl
@[simp] theorem State.setRemap_remap (v : Remap) : (s.setRemap v).remap = v := rfl
@[simp] theorem State.setRemap_host (v : Remap) : (s.setRemap v).host = s.host := rfl
@[simp] theorem State.setRemap_locks (v : Remap) : (s.setRemap v).locks = s.locks := rfl
@[simp] theorem State.setRemap_hold (v : Remap) : (s.setRemap v).hold = s.hold := rfl
@[simp] theorem State.setRemap_port (v : Remap) : (s.setRemap v).port = s.port := rfl
@[simp] theorem State.setRemap_health (v : Remap) : (s.setRemap v).health = s.health := rfl
@[simp] theorem State.setRemap_retire (v : Remap) : (s.setRemap v).retire = s.retire := rfl
@[simp] theorem State.setRemap_copy (v : Remap) : (s.setRemap v).copy = s.copy := rfl
@[simp] theorem State.setRemap_sweep (v : Remap) : (s.setRemap v).sweep = s.sweep := rfl
@[simp] theorem State.setRemap_journal (v : Remap) : (s.setRemap v).journal = s.journal := rfl
@[simp] theorem State.setRemap_events (v : Remap) : (s.setRemap v).events = s.events := rfl
@[simp] theorem State.setRemap_link (v : Remap) : (s.setRemap v).link = s.link := rfl
@[simp] theorem State.setRemap_stats (v : Remap) : (s.setRemap v).stats = s.stats := rfl
@[simp] theorem State.setRemap_pending (v : Remap) : (s.setRemap v).pending = s.pending := rfl

@[simp] theorem State.setHost_mode (v : HostPort) : (s.setHost v).mode = s.mode := rfl
@[simp] theorem State.setHost_pins (v : HostPort) : (s.setHost v).pins = s.pins := rfl
@[simp] theorem State.setHost_geom (v : HostPort) : (s.setHost v).geom = s.geom := rfl
@[simp] theorem State.setHost_params (v : HostPort) : (s.setHost v).params = s.params := rfl
@[simp] theorem State.setHost_remap (v : HostPort) : (s.setHost v).remap = s.remap := rfl
@[simp] theorem State.setHost_host (v : HostPort) : (s.setHost v).host = v := rfl
@[simp] theorem State.setHost_locks (v : HostPort) : (s.setHost v).locks = s.locks := rfl
@[simp] theorem State.setHost_hold (v : HostPort) : (s.setHost v).hold = s.hold := rfl
@[simp] theorem State.setHost_port (v : HostPort) : (s.setHost v).port = s.port := rfl
@[simp] theorem State.setHost_health (v : HostPort) : (s.setHost v).health = s.health := rfl
@[simp] theorem State.setHost_retire (v : HostPort) : (s.setHost v).retire = s.retire := rfl
@[simp] theorem State.setHost_copy (v : HostPort) : (s.setHost v).copy = s.copy := rfl
@[simp] theorem State.setHost_sweep (v : HostPort) : (s.setHost v).sweep = s.sweep := rfl
@[simp] theorem State.setHost_journal (v : HostPort) : (s.setHost v).journal = s.journal := rfl
@[simp] theorem State.setHost_events (v : HostPort) : (s.setHost v).events = s.events := rfl
@[simp] theorem State.setHost_link (v : HostPort) : (s.setHost v).link = s.link := rfl
@[simp] theorem State.setHost_stats (v : HostPort) : (s.setHost v).stats = s.stats := rfl
@[simp] theorem State.setHost_pending (v : HostPort) : (s.setHost v).pending = s.pending := rfl

@[simp] theorem State.setLocks_mode (v : Locks) : (s.setLocks v).mode = s.mode := rfl
@[simp] theorem State.setLocks_pins (v : Locks) : (s.setLocks v).pins = s.pins := rfl
@[simp] theorem State.setLocks_geom (v : Locks) : (s.setLocks v).geom = s.geom := rfl
@[simp] theorem State.setLocks_params (v : Locks) : (s.setLocks v).params = s.params := rfl
@[simp] theorem State.setLocks_remap (v : Locks) : (s.setLocks v).remap = s.remap := rfl
@[simp] theorem State.setLocks_host (v : Locks) : (s.setLocks v).host = s.host := rfl
@[simp] theorem State.setLocks_locks (v : Locks) : (s.setLocks v).locks = v := rfl
@[simp] theorem State.setLocks_hold (v : Locks) : (s.setLocks v).hold = s.hold := rfl
@[simp] theorem State.setLocks_port (v : Locks) : (s.setLocks v).port = s.port := rfl
@[simp] theorem State.setLocks_health (v : Locks) : (s.setLocks v).health = s.health := rfl
@[simp] theorem State.setLocks_retire (v : Locks) : (s.setLocks v).retire = s.retire := rfl
@[simp] theorem State.setLocks_copy (v : Locks) : (s.setLocks v).copy = s.copy := rfl
@[simp] theorem State.setLocks_sweep (v : Locks) : (s.setLocks v).sweep = s.sweep := rfl
@[simp] theorem State.setLocks_journal (v : Locks) : (s.setLocks v).journal = s.journal := rfl
@[simp] theorem State.setLocks_events (v : Locks) : (s.setLocks v).events = s.events := rfl
@[simp] theorem State.setLocks_link (v : Locks) : (s.setLocks v).link = s.link := rfl
@[simp] theorem State.setLocks_stats (v : Locks) : (s.setLocks v).stats = s.stats := rfl
@[simp] theorem State.setLocks_pending (v : Locks) : (s.setLocks v).pending = s.pending := rfl

@[simp] theorem State.setHold_mode (v : List HostTag) : (s.setHold v).mode = s.mode := rfl
@[simp] theorem State.setHold_pins (v : List HostTag) : (s.setHold v).pins = s.pins := rfl
@[simp] theorem State.setHold_geom (v : List HostTag) : (s.setHold v).geom = s.geom := rfl
@[simp] theorem State.setHold_params (v : List HostTag) : (s.setHold v).params = s.params := rfl
@[simp] theorem State.setHold_remap (v : List HostTag) : (s.setHold v).remap = s.remap := rfl
@[simp] theorem State.setHold_host (v : List HostTag) : (s.setHold v).host = s.host := rfl
@[simp] theorem State.setHold_locks (v : List HostTag) : (s.setHold v).locks = s.locks := rfl
@[simp] theorem State.setHold_hold (v : List HostTag) : (s.setHold v).hold = v := rfl
@[simp] theorem State.setHold_port (v : List HostTag) : (s.setHold v).port = s.port := rfl
@[simp] theorem State.setHold_health (v : List HostTag) : (s.setHold v).health = s.health := rfl
@[simp] theorem State.setHold_retire (v : List HostTag) : (s.setHold v).retire = s.retire := rfl
@[simp] theorem State.setHold_copy (v : List HostTag) : (s.setHold v).copy = s.copy := rfl
@[simp] theorem State.setHold_sweep (v : List HostTag) : (s.setHold v).sweep = s.sweep := rfl
@[simp] theorem State.setHold_journal (v : List HostTag) : (s.setHold v).journal = s.journal := rfl
@[simp] theorem State.setHold_events (v : List HostTag) : (s.setHold v).events = s.events := rfl
@[simp] theorem State.setHold_link (v : List HostTag) : (s.setHold v).link = s.link := rfl
@[simp] theorem State.setHold_stats (v : List HostTag) : (s.setHold v).stats = s.stats := rfl
@[simp] theorem State.setHold_pending (v : List HostTag) : (s.setHold v).pending = s.pending := rfl

@[simp] theorem State.setPort_mode (v : Port) : (s.setPort v).mode = s.mode := rfl
@[simp] theorem State.setPort_pins (v : Port) : (s.setPort v).pins = s.pins := rfl
@[simp] theorem State.setPort_geom (v : Port) : (s.setPort v).geom = s.geom := rfl
@[simp] theorem State.setPort_params (v : Port) : (s.setPort v).params = s.params := rfl
@[simp] theorem State.setPort_remap (v : Port) : (s.setPort v).remap = s.remap := rfl
@[simp] theorem State.setPort_host (v : Port) : (s.setPort v).host = s.host := rfl
@[simp] theorem State.setPort_locks (v : Port) : (s.setPort v).locks = s.locks := rfl
@[simp] theorem State.setPort_hold (v : Port) : (s.setPort v).hold = s.hold := rfl
@[simp] theorem State.setPort_port (v : Port) : (s.setPort v).port = v := rfl
@[simp] theorem State.setPort_health (v : Port) : (s.setPort v).health = s.health := rfl
@[simp] theorem State.setPort_retire (v : Port) : (s.setPort v).retire = s.retire := rfl
@[simp] theorem State.setPort_copy (v : Port) : (s.setPort v).copy = s.copy := rfl
@[simp] theorem State.setPort_sweep (v : Port) : (s.setPort v).sweep = s.sweep := rfl
@[simp] theorem State.setPort_journal (v : Port) : (s.setPort v).journal = s.journal := rfl
@[simp] theorem State.setPort_events (v : Port) : (s.setPort v).events = s.events := rfl
@[simp] theorem State.setPort_link (v : Port) : (s.setPort v).link = s.link := rfl
@[simp] theorem State.setPort_stats (v : Port) : (s.setPort v).stats = s.stats := rfl
@[simp] theorem State.setPort_pending (v : Port) : (s.setPort v).pending = s.pending := rfl

@[simp] theorem State.setHealth_mode (v : Health) : (s.setHealth v).mode = s.mode := rfl
@[simp] theorem State.setHealth_pins (v : Health) : (s.setHealth v).pins = s.pins := rfl
@[simp] theorem State.setHealth_geom (v : Health) : (s.setHealth v).geom = s.geom := rfl
@[simp] theorem State.setHealth_params (v : Health) : (s.setHealth v).params = s.params := rfl
@[simp] theorem State.setHealth_remap (v : Health) : (s.setHealth v).remap = s.remap := rfl
@[simp] theorem State.setHealth_host (v : Health) : (s.setHealth v).host = s.host := rfl
@[simp] theorem State.setHealth_locks (v : Health) : (s.setHealth v).locks = s.locks := rfl
@[simp] theorem State.setHealth_hold (v : Health) : (s.setHealth v).hold = s.hold := rfl
@[simp] theorem State.setHealth_port (v : Health) : (s.setHealth v).port = s.port := rfl
@[simp] theorem State.setHealth_health (v : Health) : (s.setHealth v).health = v := rfl
@[simp] theorem State.setHealth_retire (v : Health) : (s.setHealth v).retire = s.retire := rfl
@[simp] theorem State.setHealth_copy (v : Health) : (s.setHealth v).copy = s.copy := rfl
@[simp] theorem State.setHealth_sweep (v : Health) : (s.setHealth v).sweep = s.sweep := rfl
@[simp] theorem State.setHealth_journal (v : Health) : (s.setHealth v).journal = s.journal := rfl
@[simp] theorem State.setHealth_events (v : Health) : (s.setHealth v).events = s.events := rfl
@[simp] theorem State.setHealth_link (v : Health) : (s.setHealth v).link = s.link := rfl
@[simp] theorem State.setHealth_stats (v : Health) : (s.setHealth v).stats = s.stats := rfl
@[simp] theorem State.setHealth_pending (v : Health) : (s.setHealth v).pending = s.pending := rfl

@[simp] theorem State.setRetire_mode (v : List Queued) : (s.setRetire v).mode = s.mode := rfl
@[simp] theorem State.setRetire_pins (v : List Queued) : (s.setRetire v).pins = s.pins := rfl
@[simp] theorem State.setRetire_geom (v : List Queued) : (s.setRetire v).geom = s.geom := rfl
@[simp] theorem State.setRetire_params (v : List Queued) : (s.setRetire v).params = s.params := rfl
@[simp] theorem State.setRetire_remap (v : List Queued) : (s.setRetire v).remap = s.remap := rfl
@[simp] theorem State.setRetire_host (v : List Queued) : (s.setRetire v).host = s.host := rfl
@[simp] theorem State.setRetire_locks (v : List Queued) : (s.setRetire v).locks = s.locks := rfl
@[simp] theorem State.setRetire_hold (v : List Queued) : (s.setRetire v).hold = s.hold := rfl
@[simp] theorem State.setRetire_port (v : List Queued) : (s.setRetire v).port = s.port := rfl
@[simp] theorem State.setRetire_health (v : List Queued) : (s.setRetire v).health = s.health := rfl
@[simp] theorem State.setRetire_retire (v : List Queued) : (s.setRetire v).retire = v := rfl
@[simp] theorem State.setRetire_copy (v : List Queued) : (s.setRetire v).copy = s.copy := rfl
@[simp] theorem State.setRetire_sweep (v : List Queued) : (s.setRetire v).sweep = s.sweep := rfl
@[simp] theorem State.setRetire_journal (v : List Queued) : (s.setRetire v).journal = s.journal := rfl
@[simp] theorem State.setRetire_events (v : List Queued) : (s.setRetire v).events = s.events := rfl
@[simp] theorem State.setRetire_link (v : List Queued) : (s.setRetire v).link = s.link := rfl
@[simp] theorem State.setRetire_stats (v : List Queued) : (s.setRetire v).stats = s.stats := rfl
@[simp] theorem State.setRetire_pending (v : List Queued) : (s.setRetire v).pending = s.pending := rfl

@[simp] theorem State.setCopy_mode (v : CopyCtx) : (s.setCopy v).mode = s.mode := rfl
@[simp] theorem State.setCopy_pins (v : CopyCtx) : (s.setCopy v).pins = s.pins := rfl
@[simp] theorem State.setCopy_geom (v : CopyCtx) : (s.setCopy v).geom = s.geom := rfl
@[simp] theorem State.setCopy_params (v : CopyCtx) : (s.setCopy v).params = s.params := rfl
@[simp] theorem State.setCopy_remap (v : CopyCtx) : (s.setCopy v).remap = s.remap := rfl
@[simp] theorem State.setCopy_host (v : CopyCtx) : (s.setCopy v).host = s.host := rfl
@[simp] theorem State.setCopy_locks (v : CopyCtx) : (s.setCopy v).locks = s.locks := rfl
@[simp] theorem State.setCopy_hold (v : CopyCtx) : (s.setCopy v).hold = s.hold := rfl
@[simp] theorem State.setCopy_port (v : CopyCtx) : (s.setCopy v).port = s.port := rfl
@[simp] theorem State.setCopy_health (v : CopyCtx) : (s.setCopy v).health = s.health := rfl
@[simp] theorem State.setCopy_retire (v : CopyCtx) : (s.setCopy v).retire = s.retire := rfl
@[simp] theorem State.setCopy_copy (v : CopyCtx) : (s.setCopy v).copy = v := rfl
@[simp] theorem State.setCopy_sweep (v : CopyCtx) : (s.setCopy v).sweep = s.sweep := rfl
@[simp] theorem State.setCopy_journal (v : CopyCtx) : (s.setCopy v).journal = s.journal := rfl
@[simp] theorem State.setCopy_events (v : CopyCtx) : (s.setCopy v).events = s.events := rfl
@[simp] theorem State.setCopy_link (v : CopyCtx) : (s.setCopy v).link = s.link := rfl
@[simp] theorem State.setCopy_stats (v : CopyCtx) : (s.setCopy v).stats = s.stats := rfl
@[simp] theorem State.setCopy_pending (v : CopyCtx) : (s.setCopy v).pending = s.pending := rfl

@[simp] theorem State.setSweep_mode (v : Sweep) : (s.setSweep v).mode = s.mode := rfl
@[simp] theorem State.setSweep_pins (v : Sweep) : (s.setSweep v).pins = s.pins := rfl
@[simp] theorem State.setSweep_geom (v : Sweep) : (s.setSweep v).geom = s.geom := rfl
@[simp] theorem State.setSweep_params (v : Sweep) : (s.setSweep v).params = s.params := rfl
@[simp] theorem State.setSweep_remap (v : Sweep) : (s.setSweep v).remap = s.remap := rfl
@[simp] theorem State.setSweep_host (v : Sweep) : (s.setSweep v).host = s.host := rfl
@[simp] theorem State.setSweep_locks (v : Sweep) : (s.setSweep v).locks = s.locks := rfl
@[simp] theorem State.setSweep_hold (v : Sweep) : (s.setSweep v).hold = s.hold := rfl
@[simp] theorem State.setSweep_port (v : Sweep) : (s.setSweep v).port = s.port := rfl
@[simp] theorem State.setSweep_health (v : Sweep) : (s.setSweep v).health = s.health := rfl
@[simp] theorem State.setSweep_retire (v : Sweep) : (s.setSweep v).retire = s.retire := rfl
@[simp] theorem State.setSweep_copy (v : Sweep) : (s.setSweep v).copy = s.copy := rfl
@[simp] theorem State.setSweep_sweep (v : Sweep) : (s.setSweep v).sweep = v := rfl
@[simp] theorem State.setSweep_journal (v : Sweep) : (s.setSweep v).journal = s.journal := rfl
@[simp] theorem State.setSweep_events (v : Sweep) : (s.setSweep v).events = s.events := rfl
@[simp] theorem State.setSweep_link (v : Sweep) : (s.setSweep v).link = s.link := rfl
@[simp] theorem State.setSweep_stats (v : Sweep) : (s.setSweep v).stats = s.stats := rfl
@[simp] theorem State.setSweep_pending (v : Sweep) : (s.setSweep v).pending = s.pending := rfl

@[simp] theorem State.setJournal_mode (v : Journal) : (s.setJournal v).mode = s.mode := rfl
@[simp] theorem State.setJournal_pins (v : Journal) : (s.setJournal v).pins = s.pins := rfl
@[simp] theorem State.setJournal_geom (v : Journal) : (s.setJournal v).geom = s.geom := rfl
@[simp] theorem State.setJournal_params (v : Journal) : (s.setJournal v).params = s.params := rfl
@[simp] theorem State.setJournal_remap (v : Journal) : (s.setJournal v).remap = s.remap := rfl
@[simp] theorem State.setJournal_host (v : Journal) : (s.setJournal v).host = s.host := rfl
@[simp] theorem State.setJournal_locks (v : Journal) : (s.setJournal v).locks = s.locks := rfl
@[simp] theorem State.setJournal_hold (v : Journal) : (s.setJournal v).hold = s.hold := rfl
@[simp] theorem State.setJournal_port (v : Journal) : (s.setJournal v).port = s.port := rfl
@[simp] theorem State.setJournal_health (v : Journal) : (s.setJournal v).health = s.health := rfl
@[simp] theorem State.setJournal_retire (v : Journal) : (s.setJournal v).retire = s.retire := rfl
@[simp] theorem State.setJournal_copy (v : Journal) : (s.setJournal v).copy = s.copy := rfl
@[simp] theorem State.setJournal_sweep (v : Journal) : (s.setJournal v).sweep = s.sweep := rfl
@[simp] theorem State.setJournal_journal (v : Journal) : (s.setJournal v).journal = v := rfl
@[simp] theorem State.setJournal_events (v : Journal) : (s.setJournal v).events = s.events := rfl
@[simp] theorem State.setJournal_link (v : Journal) : (s.setJournal v).link = s.link := rfl
@[simp] theorem State.setJournal_stats (v : Journal) : (s.setJournal v).stats = s.stats := rfl
@[simp] theorem State.setJournal_pending (v : Journal) : (s.setJournal v).pending = s.pending := rfl

@[simp] theorem State.setEvents_mode (v : Events) : (s.setEvents v).mode = s.mode := rfl
@[simp] theorem State.setEvents_pins (v : Events) : (s.setEvents v).pins = s.pins := rfl
@[simp] theorem State.setEvents_geom (v : Events) : (s.setEvents v).geom = s.geom := rfl
@[simp] theorem State.setEvents_params (v : Events) : (s.setEvents v).params = s.params := rfl
@[simp] theorem State.setEvents_remap (v : Events) : (s.setEvents v).remap = s.remap := rfl
@[simp] theorem State.setEvents_host (v : Events) : (s.setEvents v).host = s.host := rfl
@[simp] theorem State.setEvents_locks (v : Events) : (s.setEvents v).locks = s.locks := rfl
@[simp] theorem State.setEvents_hold (v : Events) : (s.setEvents v).hold = s.hold := rfl
@[simp] theorem State.setEvents_port (v : Events) : (s.setEvents v).port = s.port := rfl
@[simp] theorem State.setEvents_health (v : Events) : (s.setEvents v).health = s.health := rfl
@[simp] theorem State.setEvents_retire (v : Events) : (s.setEvents v).retire = s.retire := rfl
@[simp] theorem State.setEvents_copy (v : Events) : (s.setEvents v).copy = s.copy := rfl
@[simp] theorem State.setEvents_sweep (v : Events) : (s.setEvents v).sweep = s.sweep := rfl
@[simp] theorem State.setEvents_journal (v : Events) : (s.setEvents v).journal = s.journal := rfl
@[simp] theorem State.setEvents_events (v : Events) : (s.setEvents v).events = v := rfl
@[simp] theorem State.setEvents_link (v : Events) : (s.setEvents v).link = s.link := rfl
@[simp] theorem State.setEvents_stats (v : Events) : (s.setEvents v).stats = s.stats := rfl
@[simp] theorem State.setEvents_pending (v : Events) : (s.setEvents v).pending = s.pending := rfl

@[simp] theorem State.setLink_mode (v : Link) : (s.setLink v).mode = s.mode := rfl
@[simp] theorem State.setLink_pins (v : Link) : (s.setLink v).pins = s.pins := rfl
@[simp] theorem State.setLink_geom (v : Link) : (s.setLink v).geom = s.geom := rfl
@[simp] theorem State.setLink_params (v : Link) : (s.setLink v).params = s.params := rfl
@[simp] theorem State.setLink_remap (v : Link) : (s.setLink v).remap = s.remap := rfl
@[simp] theorem State.setLink_host (v : Link) : (s.setLink v).host = s.host := rfl
@[simp] theorem State.setLink_locks (v : Link) : (s.setLink v).locks = s.locks := rfl
@[simp] theorem State.setLink_hold (v : Link) : (s.setLink v).hold = s.hold := rfl
@[simp] theorem State.setLink_port (v : Link) : (s.setLink v).port = s.port := rfl
@[simp] theorem State.setLink_health (v : Link) : (s.setLink v).health = s.health := rfl
@[simp] theorem State.setLink_retire (v : Link) : (s.setLink v).retire = s.retire := rfl
@[simp] theorem State.setLink_copy (v : Link) : (s.setLink v).copy = s.copy := rfl
@[simp] theorem State.setLink_sweep (v : Link) : (s.setLink v).sweep = s.sweep := rfl
@[simp] theorem State.setLink_journal (v : Link) : (s.setLink v).journal = s.journal := rfl
@[simp] theorem State.setLink_events (v : Link) : (s.setLink v).events = s.events := rfl
@[simp] theorem State.setLink_link (v : Link) : (s.setLink v).link = v := rfl
@[simp] theorem State.setLink_stats (v : Link) : (s.setLink v).stats = s.stats := rfl
@[simp] theorem State.setLink_pending (v : Link) : (s.setLink v).pending = s.pending := rfl

@[simp] theorem State.setStats_mode (v : Stats) : (s.setStats v).mode = s.mode := rfl
@[simp] theorem State.setStats_pins (v : Stats) : (s.setStats v).pins = s.pins := rfl
@[simp] theorem State.setStats_geom (v : Stats) : (s.setStats v).geom = s.geom := rfl
@[simp] theorem State.setStats_params (v : Stats) : (s.setStats v).params = s.params := rfl
@[simp] theorem State.setStats_remap (v : Stats) : (s.setStats v).remap = s.remap := rfl
@[simp] theorem State.setStats_host (v : Stats) : (s.setStats v).host = s.host := rfl
@[simp] theorem State.setStats_locks (v : Stats) : (s.setStats v).locks = s.locks := rfl
@[simp] theorem State.setStats_hold (v : Stats) : (s.setStats v).hold = s.hold := rfl
@[simp] theorem State.setStats_port (v : Stats) : (s.setStats v).port = s.port := rfl
@[simp] theorem State.setStats_health (v : Stats) : (s.setStats v).health = s.health := rfl
@[simp] theorem State.setStats_retire (v : Stats) : (s.setStats v).retire = s.retire := rfl
@[simp] theorem State.setStats_copy (v : Stats) : (s.setStats v).copy = s.copy := rfl
@[simp] theorem State.setStats_sweep (v : Stats) : (s.setStats v).sweep = s.sweep := rfl
@[simp] theorem State.setStats_journal (v : Stats) : (s.setStats v).journal = s.journal := rfl
@[simp] theorem State.setStats_events (v : Stats) : (s.setStats v).events = s.events := rfl
@[simp] theorem State.setStats_link (v : Stats) : (s.setStats v).link = s.link := rfl
@[simp] theorem State.setStats_stats (v : Stats) : (s.setStats v).stats = v := rfl
@[simp] theorem State.setStats_pending (v : Stats) : (s.setStats v).pending = s.pending := rfl

@[simp] theorem State.setPending_mode (v : List Instr) : (s.setPending v).mode = s.mode := rfl
@[simp] theorem State.setPending_pins (v : List Instr) : (s.setPending v).pins = s.pins := rfl
@[simp] theorem State.setPending_geom (v : List Instr) : (s.setPending v).geom = s.geom := rfl
@[simp] theorem State.setPending_params (v : List Instr) : (s.setPending v).params = s.params := rfl
@[simp] theorem State.setPending_remap (v : List Instr) : (s.setPending v).remap = s.remap := rfl
@[simp] theorem State.setPending_host (v : List Instr) : (s.setPending v).host = s.host := rfl
@[simp] theorem State.setPending_locks (v : List Instr) : (s.setPending v).locks = s.locks := rfl
@[simp] theorem State.setPending_hold (v : List Instr) : (s.setPending v).hold = s.hold := rfl
@[simp] theorem State.setPending_port (v : List Instr) : (s.setPending v).port = s.port := rfl
@[simp] theorem State.setPending_health (v : List Instr) : (s.setPending v).health = s.health := rfl
@[simp] theorem State.setPending_retire (v : List Instr) : (s.setPending v).retire = s.retire := rfl
@[simp] theorem State.setPending_copy (v : List Instr) : (s.setPending v).copy = s.copy := rfl
@[simp] theorem State.setPending_sweep (v : List Instr) : (s.setPending v).sweep = s.sweep := rfl
@[simp] theorem State.setPending_journal (v : List Instr) : (s.setPending v).journal = s.journal := rfl
@[simp] theorem State.setPending_events (v : List Instr) : (s.setPending v).events = s.events := rfl
@[simp] theorem State.setPending_link (v : List Instr) : (s.setPending v).link = s.link := rfl
@[simp] theorem State.setPending_stats (v : List Instr) : (s.setPending v).stats = s.stats := rfl
@[simp] theorem State.setPending_pending (v : List Instr) : (s.setPending v).pending = v := rfl

end Sys2Proof.Machine
end

