-- ==== Sys2Proof/Laws/Tables.lean ====
section
/-! SUPPORT. Laws of the table helpers: the lowest index that satisfies a test, and a table mapped. -/

namespace Sys2Proof

/-- A mapped table at an index. -/
@[simp] theorem tableMap_getElem {α β : Type} {n : Nat} (f : α → β) (v : Vector α n) (i : Fin n) :
    (tableMap f v)[i] = f v[i] := by
  simp [tableMap]

/-- The lowest index is one that satisfies the test, and no lower one does. -/
theorem lowestIndex_eq_some_iff {α : Type} {n : Nat} (p : α → Bool) (v : Vector α n) (i : Fin n) :
    lowestIndex p v = some i ↔ p v[i] = true ∧ ∀ j : Fin n, j < i → p v[j] = false := by
  unfold lowestIndex
  rw [List.find?_eq_some_iff_getElem]
  constructor
  · rintro ⟨hp, k, hk, he, hl⟩
    have hik : i.val = k := by simp at he; simp [← he]
    refine ⟨hp, fun j hj => ?_⟩
    have := hl j.val (by omega)
    simpa using this
  · rintro ⟨hp, hl⟩
    refine ⟨hp, i.val, by simp, by simp, fun j hj => ?_⟩
    have := hl ⟨j, by omega⟩ (by simp [Fin.lt_def, hj])
    simpa using this

/-- There is no lowest index exactly when the test holds nowhere. -/
theorem lowestIndex_eq_none_iff {α : Type} {n : Nat} (p : α → Bool) (v : Vector α n) :
    lowestIndex p v = none ↔ ∀ j : Fin n, p v[j] = false := by
  simp [lowestIndex, List.find?_eq_none]

/-- A table set at an index, read at an index. -/
theorem vector_set_getElem {α : Type} {n : Nat} (v : Vector α n) (i j : Fin n) (x : α) :
    (v.set i x)[j] = if i = j then x else v[j] := by
  simp [Vector.getElem_set, Fin.ext_iff]

end Sys2Proof
end

