-- ==== Sys2Proof/Laws/Acts.lean ====
section
/-! SUPPORT. What a step can do, said once: every command but a full reset is a chain of acts, each of which
changes one part of the state under the guard that the rules put on it. A property of the state that every
act keeps is kept by every such command. -/

namespace Sys2Proof.Machine

/-- One act of the part: the change of one field, or of the fields that a copy start changes together. -/
inductive Act : State → State → Prop
  | offer (s : State) (e : Event) : Act s (offer e s)
  | drop (s : State) (n : Nat) : Act s (s.setEvents (dropRecords n s.events))
  | ack (s : State) (v : BitVec 8) : Act s (s.setEvents { s.events with flags := v })
  | link (s : State) (v : Link) : Act s (s.setLink v)
  | stats (s : State) (v : Stats) : Act s (s.setStats v)
  | pins (s : State) (v : Pins) : Act s (s.setPins v)
  | sweep (s : State) (v : Sweep)
      (h : lineInProgress v = lineInProgress s.sweep ∨ lineInProgress v = true ∨ s.locks.sweep = none) :
      Act s (s.setSweep v)
  | locks (s : State) (v : Locks)
      (h : v.sweep = s.locks.sweep ∨ v.sweep = none ∨ lineInProgress s.sweep = true) : Act s (s.setLocks v)
  | params (s : State) (v : Params) (h : ParamsSound s.params → ParamsSound v) : Act s (s.setParams v)
  | geom (s : State) (g : Geometry) (hv : g.valid = true)
      (he : BoundOnce s → (∀ i : Fin 128, s.remap[i] = none) ∧ s.retire = []) : Act s (s.setGeom g)
  | host (s : State) (v : HostPort) (h : v.sent = s.host.sent) : Act s (s.setHost v)
  | send (s : State) (r : UpResponse) (h : r.contained = contain s) : Act s (sendUp r s)
  | hold (s : State) (v : List HostTag) (h : s.hold.length ≤ 8 → v.length ≤ 8) : Act s (s.setHold v)
  | port (s : State) (v : Port) (h : s.port.share ≤ 16 → v.share ≤ 16) : Act s (s.setPort v)
  | health (s : State) (v : Health) (h : HealthSound s.health → HealthSound v) : Act s (s.setHealth v)
  | fence (s : State) : Act s (s.setMode .fenced)
  | online (s : State) (hm : s.mode = .startup) (hw : startWork s.journal.task = false) :
      Act s (s.setMode .online)
  | journaled (s : State) (v : Bool) : Act s (s.setRemap (journalFlags v s.remap))
  | jobEntry (s : State) (j : CopyJob) (f : Binding → Binding) (hj : s.copy.job = some j)
      (hf : ∀ b, (f b).span = b.span ∧ (f b).slot = b.slot)
      (hc : ∀ b, s.copy.cursor ≤ 63 → b.copied ≤ 64 → (f b).copied ≤ 64) :
      Act s (s.setRemap (modifyEntry j.entry f s.remap))
  | freeJob (s : State) (j : CopyJob) (hj : s.copy.job = some j) : Act s (s.setRemap (freeJobEntry j s.remap))
  | restore (s : State) (r : JRecord) (e : Fin 128) (hw : startWork s.journal.task = true)
      (hb : beforeRecords s.journal.task = false) (hc : assignCheck s r = 0)
      (he : freeEntry s.remap = some e) : Act s (s.setRemap (s.remap.set e (some (restoredBinding r))))
  | enqueue (s : State) (span : Nat) (o : RetireOrigin) (ha : admission s span = .taken)
      (hw : BoundOnce s → startWork s.journal.task = false) : Act s (enqueueSpan span o s)
  | dequeue (s : State) (v : List Queued) (h : v.Sublist s.retire) : Act s (s.setRetire v)
  | copy (s : State) (v : CopyCtx) (hc : s.copy.cursor ≤ 63 → v.cursor ≤ 63)
      (hj : v.job = s.copy.job ∧ (v.state = .idle → s.copy.state = .idle) ∨
        (BoundOnce s → ∀ i : Fin 128, ∀ b ∈ s.remap[i], b.stage = .active)) : Act s (s.setCopy v)
  | start (s : State) (q : Queued) (rest : List Queued) (e : Fin 128) (k : Nat) (v : CopyCtx)
      (hi : s.copy.state = .idle) (hm : s.mode = .online) (hq : s.retire = q :: rest)
      (hk : freeSlot s.geom s.remap = some k) (he : freeEntry s.remap = some e) (hc : v.cursor = 0)
      (hs : v.state ≠ .idle) (hj : v.job = some ⟨e, q.span, k⟩) :
      Act s (((s.setRetire rest).setRemap
        (s.remap.set e (some ⟨.copying, q.span, k, 0, q.origin, false, 0⟩))).setCopy v)
  | journal (s : State) (v : Journal)
      (hw : startWork v.task = true → startWork s.journal.task = true)
      (hb : beforeRecords v.task = true → beforeRecords s.journal.task = true) : Act s (s.setJournal v)

/-- A chain of acts. -/
def Acts : State → State → Prop := Relation.ReflTransGen Act

variable {s t : State}

theorem Acts.refl : Acts s s := Relation.ReflTransGen.refl
theorem Acts.tail {u : State} (h : Acts s t) (ha : Act t u) : Acts s u := Relation.ReflTransGen.tail h ha

theorem Acts.ite {c : Prop} [Decidable c] {u : State} (h1 : Acts s t) (h2 : Acts s u) :
    Acts s (if c then t else u) := by split <;> assumption

/-- A state property that every act keeps is kept by every chain. -/
theorem Acts.keeps {P : State → Prop} (h : ∀ u v, Act u v → P u → P v) (hst : Acts s t) (hs : P s) : P t := by
  unfold Acts at hst
  induction hst with
  | refl => exact hs
  | tail _ ha ih => exact h _ _ ha ih

/-! ### Events, and the fields that no guard stands on -/

@[simp] theorem Acts.offer (e : Event) (h : Acts s t) : Acts s (offer e t) := h.tail (.offer t e)
@[simp] theorem Acts.setLink (v : Link) (h : Acts s t) : Acts s (t.setLink v) := h.tail (.link t v)
@[simp] theorem Acts.setStats (v : Stats) (h : Acts s t) : Acts s (t.setStats v) := h.tail (.stats t v)
@[simp] theorem Acts.setPins (v : Pins) (h : Acts s t) : Acts s (t.setPins v) := h.tail (.pins t v)
theorem Acts.setSweep {v : Sweep} (hv : v.state = t.sweep.state) (h : Acts s t) : Acts s (t.setSweep v) :=
  h.tail (.sweep t v (.inl (by simp [lineInProgress, hv])))
theorem Acts.setLocks {v : Locks} (hv : v.sweep = t.locks.sweep) (h : Acts s t) : Acts s (t.setLocks v) :=
  h.tail (.locks t v (.inl hv))
@[simp] theorem Acts.answer (c : RespCode) (p : List Byte) (h : Acts s t) : Acts s (answer c p t) := h.setLink _
@[simp] theorem Acts.takeFrame (h : Acts s t) : Acts s (takeFrame t) := h.setLink _
theorem Acts.addHolder {k : Holder} (p : PhysLine) (hk : k ≠ .sweep) (h : Acts s t) :
    Acts s (addHolder k p t) := h.setLocks (by cases k <;> first | rfl | exact absurd rfl hk)

/-! ### The host port's operations -/

theorem Acts.setHost {v : HostPort} (hv : v.sent = t.host.sent) (h : Acts s t) : Acts s (t.setHost v) :=
  h.tail (.host t v hv)
theorem Acts.setHold {v : List HostTag} (hv : v.length ≤ t.hold.length) (h : Acts s t) :
    Acts s (t.setHold v) := h.tail (.hold t v (by omega))
@[simp] theorem Acts.setRecord (k : HostTag) (r : Option HostRec) (h : Acts s t) : Acts s (setRecord k r t) :=
  h.setHost rfl
@[simp] theorem Acts.modifyRecord (k : HostTag) (f : HostRec → HostRec) (h : Acts s t) :
    Acts s (modifyRecord k f t) := h.setRecord _ _
@[simp] theorem Acts.answerRead (k : HostTag) (o : ReadOutcome) (d : LineData) (h : Acts s t) :
    Acts s (answerRead k o d t) := (h.setRecord k none).tail (.send _ _ rfl)
@[simp] theorem Acts.answerWrite (k : HostTag) (o : WriteOutcome) (h : Acts s t) :
    Acts s (answerWrite k o t) := (h.setRecord k none).tail (.send _ _ rfl)
@[simp] theorem Acts.finishHalf (k : HostTag) (x : Half) (v : HalfResult) (h : Acts s t) :
    Acts s (finishHalf k x v t) := by
  unfold Machine.finishHalf; split
  · exact h
  · dsimp only; split <;> simp [h]
@[simp] theorem Acts.releaseLine (n : Nat) (h : Acts s t) : Acts s (releaseLine n t) :=
  (h.setHold (by simpa using List.length_filter_le _ _)).setHost rfl

theorem insertHeld_length (p : HostPort) (x : HostTag) (l : List HostTag) :
    (insertHeld p x l).length = l.length + 1 := by
  induction l with
  | nil => rfl
  | cons y ys ih => unfold insertHeld; split <;> simp [ih]

theorem foldl_insertHeld_length (p : HostPort) (xs l : List HostTag) :
    (xs.foldl (fun l x => insertHeld p x l) l).length = l.length + xs.length := by
  induction xs generalizing l with
  | nil => rfl
  | cons y ys ih => simp [ih, insertHeld_length]; omega

theorem Acts.holdTags {xs : List HostTag} (hx : t.hold.length + xs.length ≤ 8) (h : Acts s t) :
    Acts s (holdTags xs t) := by
  refine Acts.setHost rfl (Acts.setStats _ (h.tail (.hold t _ fun _ => ?_)))
  rw [foldl_insertHeld_length]; exact hx

@[simp] theorem Acts.divertHead (h : Acts s t) : Acts s (divertHead t) := by
  unfold Machine.divertHead; dsimp only; split
  · rename_i hl; exact Acts.holdTags hl (h.setHost rfl)
  · exact h.setHost rfl
@[simp] theorem Acts.recheckHead (h : Acts s t) : Acts s (recheckHead t) := by
  unfold Machine.recheckHead; split
  · split
    · simp [h]
    · exact h.setHost rfl
  · exact h
theorem Acts.freeLine (k : Holder) (h : Acts s t) : Acts s (t.setLocks (t.locks.setLine k none)) := by
  refine h.tail (.locks t _ ?_)
  cases k
  · exact .inl rfl
  · exact .inr (.inl rfl)
  · exact .inl rfl
@[simp] theorem Acts.removeHolder (k : Holder) (h : Acts s t) : Acts s (removeHolder k t) := by
  unfold Machine.removeHolder; split
  · exact h
  · dsimp only; split
    · exact h.freeLine _
    · split
      · exact ((h.freeLine _).releaseLine _).recheckHead
      · exact (h.freeLine _).recheckHead

/-! ### The Retirement Queue and the Health Table -/

theorem BoundOnce.not_startWork (hm : s.mode = .online) (hb : BoundOnce s) :
    startWork s.journal.task = false := by
  by_contra hw; exact hb.startMode (by simpa using hw) hm

theorem Acts.takeSpan {n : Nat} (o : RetireOrigin) (src : Source) (ha : admission t n = .taken)
    (hm : t.mode = .online) (h : Acts s t) : Acts s (takeSpan n o src t) :=
  (h.tail (.enqueue t n o ha (BoundOnce.not_startWork hm))).offer _

@[simp] theorem Acts.autoRequest (n : Nat) (src : Source) (h : Acts s t) : Acts s (autoRequest n src t) := by
  unfold Machine.autoRequest; split
  · rename_i hm; split
    · rename_i ha; exact h.takeSpan _ _ ha hm
    · simp [h]
    · exact h
    · exact h
  · exact h

theorem findHealth_some {h : Health} {n : Nat} {i : Fin 64} (hf : findHealth h n = some i) :
    ∃ e, h[i] = some e ∧ e.span = n := by
  have := ((lowestIndex_eq_some_iff _ _ _).1 hf).1
  cases he : h[i] <;> simp_all

theorem findHealth_none {h : Health} {n : Nat} (hf : findHealth h n = none) (i : Fin 64) :
    ∀ e ∈ h[i], e.span ≠ n := by
  have := (lowestIndex_eq_none_iff _ _).1 hf i
  intro e he; simp_all

theorem HealthSound.setSame {h : Health} {i : Fin 64} {e : HealthEntry} (hs : HealthSound h)
    (hc : e.fixed ≤ 255 ∧ e.failed ≤ 15) (hu : ∀ j : Fin 64, ∀ f ∈ h[j], f.span = e.span → j = i) :
    HealthSound (h.set i (some e)) := by
  constructor
  · intro j f hf
    rw [vector_set_getElem] at hf
    split at hf
    · simp_all
    · exact hs.counts j f hf
  · intro j k a ha b hb hab
    rw [vector_set_getElem] at ha hb
    split at ha <;> split at hb
    · simp_all
    · subst_vars; simp at ha; subst ha; exact (hu k b hb hab.symm).symm
    · subst_vars; simp at hb; subst hb; exact hu j a ha hab
    · exact hs.unique j k a ha b hb hab

/-- Where an increment lands, with what stands in the table beside it (R79, R80, R81). -/
theorem incrementPlace_some {n : Nat} {i : Fin 64} {e : HealthEntry} (hp : incrementPlace s n = some (i, e)) :
    e.span = n ∧ (s.health[i] = some e ∨ e.fixed = 0 ∧ e.failed = 0 ∧ ∀ j : Fin 64, ∀ f ∈ s.health[j], f.span ≠ n) := by
  unfold incrementPlace at hp
  split at hp
  · rename_i x hx
    simp only [healthOf, Option.bind_eq_some_iff, Option.map_eq_some_iff] at hx
    obtain ⟨j, hj, f, hf, rfl⟩ := hx
    obtain ⟨g, hg, hn⟩ := findHealth_some hj
    cases hp; rw [hf] at hg; cases hg
    exact ⟨hn, .inl hf⟩
  · rename_i hx
    have hno : findHealth s.health n = none := by
      by_contra hc
      obtain ⟨j, hj⟩ := Option.ne_none_iff_exists'.1 hc
      obtain ⟨g, hg, -⟩ := findHealth_some hj
      simp [healthOf, hj] at hx
      exact absurd (hx.symm.trans hg) (by simp)
    have hall := fun j => findHealth_none hno j
    split at hp
    · cases hp; exact ⟨rfl, .inr ⟨rfl, rfl, hall⟩⟩
    · simp only [Option.map_eq_some_iff] at hp
      obtain ⟨j, -, he⟩ := hp
      cases he; exact ⟨rfl, .inr ⟨rfl, rfl, hall⟩⟩

theorem countIn_span (p : BitVec 16) (f : Bool) (e : HealthEntry) : (countIn p f e).span = e.span := rfl

@[simp] theorem Acts.reportOnce {i : Fin 64} {e : HealthEntry} (ev : Event) (he : t.health[i] = some e)
    (h : Acts s t) : Acts s (reportOnce i e ev t) := by
  unfold Machine.reportOnce; split
  · exact h
  · refine (h.offer ev).tail (.health _ _ fun hs => hs.setSame ?_ ?_)
    · exact hs.counts i e he
    · exact fun j f hf hsp => hs.unique j i f hf e he hsp

@[simp] theorem Acts.thresholdCheck {i : Fin 64} {e : HealthEntry} (src : Source) (he : t.health[i] = some e)
    (h : Acts s t) : Acts s (thresholdCheck i e src t) := by
  unfold Machine.thresholdCheck
  split
  · split
    · exact h.reportOnce _ he
    · split
      · simp [h]
      · exact h.reportOnce _ he
  · exact h

@[simp] theorem Acts.dropIncrement (n : Nat) (f : Bool) (src : Source) (h : Acts s t) :
    Acts s (dropIncrement n f src t) := by
  unfold Machine.dropIncrement; split
  · exact h
  · exact (h.offer _).setSweep rfl

@[simp] theorem Acts.healthIncrement (n : Nat) (f : Bool) (src : Source) (h : Acts s t) :
    Acts s (healthIncrement n f src t) := by
  unfold Machine.healthIncrement; split
  · simp [h]
  · rename_i i e hp
    obtain ⟨hn, hp⟩ := incrementPlace_some hp
    refine Acts.thresholdCheck src (by simp) (h.tail (.health _ _ fun hs => hs.setSame ?_ ?_))
    · have hc : e.fixed ≤ 255 ∧ e.failed ≤ 15 := by
        rcases hp with hp | ⟨h0, h1, -⟩
        · exact hs.counts i e hp
        · omega
      simp only [countIn]; constructor <;> split <;> omega
    · intro j g hg hsp
      rw [countIn_span, hn] at hsp
      rcases hp with hp | ⟨-, -, hno⟩
      · exact hs.unique j i g hg e hp (hsp.trans hn.symm)
      · exact absurd hsp (hno j g hg)

theorem HealthSound.decay (p : Params) {h : Health} (hs : HealthSound h) : HealthSound (Machine.decay p h) := by
  have key : ∀ i : Fin 64, ∀ e ∈ (Machine.decay p h)[i], ∃ f, h[i] = some f ∧ e.span = f.span ∧ e.fixed ≤ f.fixed ∧
      e.failed = f.failed := by
    intro i e he
    simp only [Machine.decay, tableMap_getElem] at he
    cases hi : h[i] with
    | none => simp [hi] at he
    | some f =>
      simp only [hi, Option.bind_some, decayEntry] at he
      refine ⟨f, rfl, ?_⟩
      split at he
      · simp at he
      · simp at he; subst he; split <;> simp <;> omega
  constructor
  · intro i e he
    obtain ⟨f, hf, -, h1, h2⟩ := key i e he
    have := hs.counts i f hf
    omega
  · intro i j a ha b hb hab
    obtain ⟨f, hf, hfs, -⟩ := key i a ha
    obtain ⟨g, hg, hgs, -⟩ := key j b hb
    exact hs.unique i j f hf g hg (by rw [← hfs, ← hgs, hab])

theorem HealthSound.removeRetired (n : Nat) {h : Health} (hs : HealthSound h) :
    HealthSound (Machine.removeRetired n h) := by
  have key : ∀ i : Fin 64, ∀ e ∈ (Machine.removeRetired n h)[i], h[i] = some e := by
    intro i e he
    simp only [Machine.removeRetired, tableMap_getElem] at he
    split at he
    · simp at he
    · simpa using he
  exact ⟨fun i e he => hs.counts i e (key i e he),
    fun i j a ha b hb hab => hs.unique i j a (key i a ha) b (key j b hb) hab⟩

theorem HealthSound.empty : HealthSound emptyHealth := by
  constructor <;> intro i <;> simp [emptyHealth]

/-! ### The sweep -/

@[simp] theorem Acts.passEnd (h : Acts s t) : Acts s (passEnd t) :=
  Acts.setSweep rfl ((h.offer _).tail (.health _ _ (HealthSound.decay _)))
@[simp] theorem Acts.advance (h : Acts s t) : Acts s (advance t) := by
  unfold Machine.advance; split
  · exact h.setSweep rfl
  · exact h.passEnd
@[simp] theorem Acts.startTimer (h : Acts s t) : Acts s (startTimer t) := h.setSweep rfl

/-- The sweep unit may become WAITING or STOPPED when it holds no lock, or was in one of the two. -/
theorem Acts.sweepRest {v : Sweep} (hv : lineInProgress v = false)
    (hl : t.locks.sweep = none ∨ lineInProgress t.sweep = false) (h : Acts s t) : Acts s (t.setSweep v) := by
  refine h.tail (.sweep t v ?_)
  rcases hl with hl | hl
  · exact .inr (.inr hl)
  · exact .inl (hv.trans hl.symm)
theorem Acts.sweepWait (hl : t.locks.sweep = none ∨ lineInProgress t.sweep = false) (h : Acts s t) :
    Acts s (sweepWait t) := (h.sweepRest rfl hl).startTimer
theorem Acts.sweepHalt (hl : t.locks.sweep = none ∨ lineInProgress t.sweep = false) (h : Acts s t) :
    Acts s (sweepHalt t) := h.sweepRest rfl hl

theorem advance_locks (t : State) : (advance t).locks = t.locks := by unfold advance; split <;> rfl
theorem advance_state (t : State) : (advance t).sweep.state = t.sweep.state := by
  unfold advance; split <;> rfl
theorem recheckHead_locks (t : State) : (recheckHead t).locks = t.locks := by
  unfold recheckHead; split
  · split
    · unfold divertHead; dsimp only; split <;> rfl
    · rfl
  · rfl
theorem removeHolder_locks (k : Holder) (t : State) : (removeHolder k t).locks = t.locks.setLine k none := by
  unfold removeHolder; split
  · rename_i hn
    cases k <;> simp only [Locks.lineOf, Locks.setLine] at hn ⊢
    · rw [← hn]
    · rw [← hn]
    · rename_i k
      rw [← hn]; simp
  · dsimp only; split
    · rfl
    · split
      · rw [recheckHead_locks]; rfl
      · rw [recheckHead_locks]; rfl

/-- A line's end once SWEEP has left its line (R120). -/
theorem Acts.lineEndRest {u v w : State} (hl : u.locks.sweep = none)
    (hv : v = u.setSweep (clearLine u.sweep))
    (hw : w = if v.sweep.positionHeld then v.setSweep { v.sweep with positionHeld := false }
      else Machine.advance v) (h : Acts s u) :
    Acts s (if w.sweep.stopPending ∨ w.mode = .fenced then Machine.sweepHalt w else Machine.sweepWait w) := by
  have h1 : Acts s v := hv ▸ h.setSweep rfl
  have h2 : Acts s w := by
    rw [hw]; exact Acts.ite (h1.setSweep rfl) h1.advance
  have h3 : w.locks.sweep = none := by
    rw [hw]; split
    · rw [hv]; exact hl
    · rw [advance_locks, hv]; exact hl
  exact Acts.ite (h2.sweepHalt (.inl h3)) (h2.sweepWait (.inl h3))
@[simp] theorem Acts.lineEnd (f : Bool) (h : Acts s t) : Acts s (lineEnd f t) := by
  refine Acts.lineEndRest ?_ rfl rfl (Acts.removeHolder .sweep (Acts.ite (Acts.setSweep rfl (Acts.setSweep rfl h))
    (Acts.setSweep rfl h)))
  rw [removeHolder_locks]; rfl
@[simp] theorem Acts.abandonLine (h : Acts s t) : Acts s (abandonLine t) := by
  refine Acts.sweepHalt (.inl ?_) (Acts.setSweep rfl (h.removeHolder .sweep))
  show (Machine.removeHolder .sweep t).locks.sweep = none
  rw [removeHolder_locks]; rfl
@[simp] theorem Acts.presentSweep (b : DownBody) (o : Originator) (h : Acts s t) :
    Acts s (presentSweep b o t) := by
  unfold Machine.presentSweep; split
  · exact h
  · exact h.setSweep rfl
@[simp] theorem Acts.sweepReadIfDue (h : Acts s t) : Acts s (sweepReadIfDue t) := by
  unfold Machine.sweepReadIfDue; split <;> simp [h]
theorem Acts.sweepSkip (hw : t.sweep.state = .waiting) (h : Acts s t) : Acts s (sweepSkip t) := by
  refine Acts.sweepWait (.inr ?_) (Acts.advance (Acts.setSweep rfl h))
  simp [lineInProgress, advance_state, countSkipped, hw]
theorem Acts.setSweepOn {v : Sweep} (hv : lineInProgress v = true) (h : Acts s t) : Acts s (t.setSweep v) :=
  h.tail (.sweep t v (.inr (.inl hv)))
theorem Acts.sweepVisit (hw : t.sweep.state = .waiting) (h : Acts s t) : Acts s (sweepVisit t) := by
  unfold Machine.sweepVisit; split
  · exact h.sweepSkip hw
  · refine Acts.ite (Acts.sweepReadIfDue (Acts.tail (Acts.setSweepOn rfl h) (.locks _ _ (.inr (.inr rfl)))))
      (h.sweepSkip hw)
theorem Acts.sweepExpire (hw : t.sweep.state = .waiting) (h : Acts s t) : Acts s (sweepExpire t) := by
  unfold Machine.sweepExpire; split
  · exact Acts.sweepVisit hw (Acts.setSweep rfl h)
  · refine Acts.sweepWait (.inr ?_) h.passEnd
    show lineInProgress t.sweep = false
    simp [lineInProgress, hw]
@[simp] theorem Acts.sweepFixed (p : PhysLine) (d : LineData) (h : Acts s t) : Acts s (sweepFixed p d t) := by
  have h1 := h.healthIncrement p.span false .sweep
  exact Acts.presentSweep _ _ (Acts.setSweepOn rfl (Acts.ite (h1.offer _) h1))
@[simp] theorem Acts.sweepFailed (p : PhysLine) (h : Acts s t) : Acts s (sweepFailed p t) := by
  have h1 := Acts.offer (lineEvent .uncorrectable .sweep p (some ((t.sweep.retry.map Retry.used).getD 0)))
    (Acts.setSweep (v := countFailed (Machine.healthIncrement p.span true .sweep t).sweep) rfl
      (h.healthIncrement p.span true .sweep))
  exact Acts.ite (Acts.presentSweep _ _ (Acts.setSweepOn rfl h1)) (h1.lineEnd _)
@[simp] theorem Acts.sweepPoisoned (h : Acts s t) : Acts s (sweepPoisoned t) := Acts.lineEnd _ (Acts.setSweep rfl h)
@[simp] theorem Acts.sweepRetry (r : Retry) (h : Acts s t) : Acts s (sweepRetry r t) :=
  Acts.presentSweep _ _ (Acts.setSweepOn rfl h)
@[simp] theorem Acts.sweepReadDone (p : PhysLine) (r : ReadResult) (d : LineData) (h : Acts s t) :
    Acts s (sweepReadDone p r d t) := by
  unfold Machine.sweepReadDone; split <;> (try split) <;> simp [h]
@[simp] theorem Acts.sweepRetryDone (p : PhysLine) (r : ReadResult) (d : LineData) (h : Acts s t) :
    Acts s (sweepRetryDone p r d t) := by
  unfold Machine.sweepRetryDone; split
  · exact (h.offer _).lineEnd _
  · exact (h.offer _).sweepFixed _ _
  · simp [h]
  · split
    · split <;> simp [h]
    · simp [h]
@[simp] theorem Acts.sweepReadCompletes (i : Issue) (r : ReadResult) (d : LineData) (h : Acts s t) :
    Acts s (sweepReadCompletes i r d t) :=
  Acts.ite (Acts.sweepRetryDone _ _ _ (Acts.setSweep rfl h)) (Acts.sweepReadDone _ _ _ (Acts.setSweep rfl h))
@[simp] theorem Acts.sweepWriteCompletes (i : Issue) (h : Acts s t) : Acts s (sweepWriteCompletes i t) := by
  unfold Machine.sweepWriteCompletes Machine.sweepWriteDone; split
  · exact Acts.lineEnd _ (Acts.offer _ (Acts.setSweep rfl h))
  · exact Acts.lineEnd _ (Acts.setSweep rfl h)
  · exact Acts.lineEnd _ (Acts.setSweep rfl h)
@[simp] theorem Acts.sweepFence (h : Acts s t) : Acts s (sweepFence t) := by
  unfold Machine.sweepFence; split
  · exact h.setSweep rfl
  · rename_i hl
    exact Acts.ite (h.sweepHalt (.inr (by simpa using hl))) h
@[simp] theorem Acts.sweepReposition (h : Acts s t) : Acts s (sweepReposition t) := h.setSweep rfl

/-! ### The copy engine -/

/-- A change of the copy context that keeps the job, the cursor and whether the engine is IDLE. -/
theorem Acts.setCopy {v : CopyCtx} (hj : v.job = t.copy.job) (hc : v.cursor = t.copy.cursor)
    (hs : v.state = .idle → t.copy.state = .idle) (h : Acts s t) : Acts s (t.setCopy v) :=
  h.tail (.copy t v (by omega) (.inl ⟨hj, hs⟩))

@[simp] theorem Acts.enqueueRequest (r : JRequest) (h : Acts s t) : Acts s (enqueueRequest r t) :=
  h.tail (.journal t _ id id)

theorem Acts.modifyJobEntry {f : Binding → Binding} (hf : ∀ b, (f b).span = b.span ∧ (f b).slot = b.slot)
    (hc : ∀ b, t.copy.cursor ≤ 63 → b.copied ≤ 64 → (f b).copied ≤ 64) (h : Acts s t) :
    Acts s (modifyJobEntry f t) := by
  unfold Machine.modifyJobEntry; split
  · rename_i j hj; exact h.tail (.jobEntry t j f hj hf hc)
  · exact h

@[simp] theorem Acts.presentCopy (l : Option PhysLine) (b : DownBody) (o : Originator) (h : Acts s t) :
    Acts s (presentCopy l b o t) := by
  unfold Machine.presentCopy; split
  · exact h
  · exact h.setCopy rfl rfl id
@[simp] theorem Acts.takeLine (h : Acts s t) : Acts s (takeLine t) := by
  have : Acts s (t.setCopy { t.copy with state := .lineRead, request := .absent }) :=
    h.setCopy rfl rfl (by simp)
  unfold Machine.takeLine; dsimp only; split
  · exact this.addHolder _ (by simp)
  · exact this
@[simp] theorem Acts.copyReadIfDue (h : Acts s t) : Acts s (copyReadIfDue t) := by
  unfold Machine.copyReadIfDue; split <;> simp [h]
@[simp] theorem Acts.cancelReported (h : Acts s t) : Acts s (cancelReported t) := h.setCopy rfl rfl id
@[simp] theorem Acts.sendCancel (h : Acts s t) : Acts s (sendCancel t) := by
  unfold Machine.sendCancel; split
  · exact h
  · split <;> simp [h]
@[simp] theorem Acts.stepEnded (h : Acts s t) : Acts s (stepEnded t) := by
  simp only [Machine.stepEnded]
  exact Acts.sendCancel (Acts.removeHolder _ (h.setCopy rfl rfl id))
@[simp] theorem Acts.beginAbort (c : AbortCause) (h : Acts s t) : Acts s (beginAbort c t) := by
  have h1 : Acts s (Machine.modifyJobEntry (fun b => { b with stage := .aborting }) t) :=
    h.modifyJobEntry (fun _ => ⟨rfl, rfl⟩) (fun _ _ hb => hb)
  unfold Machine.beginAbort; dsimp only
  have h2 := fun b => Acts.setCopy (v := { (Machine.modifyJobEntry (fun b => { b with stage := .aborting }) t).copy with
    state := .aborting, writeKind := none, cause := some c, stepInFlight := b }) rfl rfl (by simp) h1
  split <;> simp [h2]
@[simp] theorem Acts.copyFence (h : Acts s t) : Acts s (copyFence t) := by
  unfold Machine.copyFence; split <;> simp [h]
@[simp] theorem Acts.withdrawHalf (i : Issue) (h : Acts s t) : Acts s (withdrawHalf i t) := by
  unfold Machine.withdrawHalf; split
  · split <;> simp [h]
  · exact h

theorem Acts.foldl {α : Type} {f : State → α → State} (hf : ∀ u a, Acts s u → Acts s (f u a)) (l : List α)
    (h : Acts s t) : Acts s (l.foldl f t) := by
  induction l generalizing t with
  | nil => exact h
  | cons a l ih => exact ih (hf _ a h)

@[simp] theorem Acts.withdrawHalves (n : Nat) (h : Acts s t) : Acts s (withdrawHalves n t) :=
  Acts.foldl (fun _ a hu => hu.withdrawHalf a) _ (h.setHost rfl)

theorem withdrawHalf_copy (i : Issue) (t : State) : (withdrawHalf i t).copy = t.copy := by
  unfold withdrawHalf finishHalf answerWrite; split
  · split
    · split
      · rfl
      · dsimp only; split <;> rfl
    · rfl
  · rfl

theorem foldl_keeps {α β : Type} {f : State → α → State} {g : State → β} (hf : ∀ u a, g (f u a) = g u)
    (l : List α) (t : State) : g (l.foldl f t) = g t := by
  induction l generalizing t with
  | nil => rfl
  | cons a l ih => simp [ih, hf]

theorem withdrawHalves_copy (n : Nat) (t : State) : (withdrawHalves n t).copy = t.copy :=
  foldl_keeps (g := State.copy) (fun u a => withdrawHalf_copy a u) _ _

/-- With the copy engine's entry ACTIVE or FREE, every entry is ACTIVE or FREE. -/
theorem BoundOnce.all_active {j : CopyJob} (hj : s.copy.job = some j)
    (ha : ∀ b ∈ s.remap[j.entry], b.stage = .active) (hb : BoundOnce s) :
    ∀ i : Fin 128, ∀ b ∈ s.remap[i], b.stage = .active := by
  intro i b hi
  by_contra hn
  have := (hb.oneCopy i b hi hn).2
  rw [hj] at this
  have : j.entry = i := by simpa using this
  subst this; exact hn (ha b hi)

theorem Acts.finishAbort {j : CopyJob} (hj : t.copy.job = some j) (h : Acts s t) :
    Acts s (finishAbort j t) := by
  have h1 := h.withdrawHalves (t.geom.slotSpan j.slot)
  have hj1 : (Machine.withdrawHalves (t.geom.slotSpan j.slot) t).copy.job = some j := by
    rw [withdrawHalves_copy, hj]
  have h2 : Acts s _ := h1.tail (.freeJob _ j hj1)
  refine (h2.offer _).tail (.copy _ _ (by simp [idleCopy]) (.inr (BoundOnce.all_active (j := j) ?_ ?_)))
  · exact hj1
  · intro b hb
    change b ∈ (freeJobEntry j (Machine.withdrawHalves _ t).remap)[j.entry] at hb
    unfold freeJobEntry at hb
    split at hb
    · simp at hb
    · rename_i hu
      by_contra hn
      rw [Option.mem_def] at hb
      exact hu (by rw [hb]; simp [underCopy, hn])

@[simp] theorem Acts.abortEndIfDue (h : Acts s t) : Acts s (abortEndIfDue t) := by
  unfold Machine.abortEndIfDue; split
  · split
    · rename_i j hj; exact h.finishAbort hj
    · exact h
  · exact h

theorem modifyEntry_getElem (i : Fin 128) (f : Binding → Binding) (r : Remap) :
    (modifyEntry i f r)[i] = r[i].map (fun b => if b.stage = .active then b else f b) := by
  unfold modifyEntry
  split
  · rename_i b hb
    split <;> simp [*]
  · rename_i hb; simp [hb]

@[simp] theorem Acts.assignReported (w : Bool) (h : Acts s t) : Acts s (assignReported w t) := by
  unfold Machine.assignReported; split
  · exact h
  · rename_i j hj
    dsimp only
    have h1 := h.tail (.jobEntry t j (fun b => { b with stage := .active, journaled := w }) hj
      (fun _ => ⟨rfl, rfl⟩) (fun _ _ hb => hb))
    refine (((h1.tail (.health _ _ (HealthSound.removeRetired j.span))).offer _).tail
      (.copy _ _ (by simp [idleCopy]) (.inr (BoundOnce.all_active (j := j) hj ?_))))
    intro b hb
    change b ∈ (modifyEntry j.entry _ t.remap)[j.entry] at hb
    rw [modifyEntry_getElem, Option.mem_def, Option.map_eq_some_iff] at hb
    obtain ⟨a, -, rfl⟩ := hb
    split <;> simp_all

@[simp] theorem Acts.sendAssign (h : Acts s t) : Acts s (sendAssign t) := by
  unfold Machine.sendAssign; split
  · exact h
  · split <;> simp [h]
@[simp] theorem Acts.beginReported (h : Acts s t) : Acts s (beginReported t) := by
  unfold Machine.beginReported; split <;> simp [h]
@[simp] theorem Acts.sendBegin (j : CopyJob) (h : Acts s t) : Acts s (sendBegin j t) := by
  unfold Machine.sendBegin; split <;> simp [h]

theorem Acts.startCopy {q : Queued} {rest : List Queued} {e : Fin 128} {k : Nat} (hi : mayStart t = true)
    (hq : t.retire = q :: rest) (hk : freeSlot t.geom t.remap = some k) (he : freeEntry t.remap = some e)
    (h : Acts s t) : Acts s (startCopy q rest e k t) := by
  simp only [mayStart, Bool.and_eq_true, beq_iff_eq] at hi
  have h1 := h.tail (.start t q rest e k { idleCopy false with state := .beginning, job := some ⟨e, q.span, k⟩ }
    hi.1 hi.2 hq hk he rfl (by simp) rfl)
  exact (h1.offer _).sendBegin _

@[simp] theorem Acts.spareExhausted (q : Queued) (h : Acts s t) : Acts s (spareExhausted q t) := by
  unfold Machine.spareExhausted; split
  · exact h
  · exact (h.offer _).setCopy rfl rfl id
@[simp] theorem Acts.considerStart (h : Acts s t) : Acts s (considerStart t) := by
  unfold Machine.considerStart; split
  · rename_i hi; split
    · exact h
    · rename_i q rest hq; split
      · rename_i k e hk he; exact h.startCopy hi hq hk he
      · simp [h]
  · exact h
@[simp] theorem Acts.copyCarry (p : PhysLine) (f : Bool) (d : LineData) (h : Acts s t) :
    Acts s (copyCarry p f d t) := by
  have : Acts s (t.setCopy { t.copy with state := .lineWrite, data := some d, writeKind := some .plain }) :=
    h.setCopy rfl rfl (by simp)
  unfold Machine.copyCarry; dsimp only; split
  · split
    · exact ((this.presentCopy _ _ _).healthIncrement _ _ _).offer _
    · exact (this.presentCopy _ _ _).healthIncrement _ _ _
  · exact this.presentCopy _ _ _
@[simp] theorem Acts.copyPoison (k : WriteKind) (h : Acts s t) : Acts s (copyPoison k t) := by
  have : Acts s (t.setCopy { t.copy with state := .lineWrite, writeKind := some k }) :=
    h.setCopy rfl rfl (by simp)
  simp [Machine.copyPoison, this]
@[simp] theorem Acts.copyFailed (p : PhysLine) (h : Acts s t) : Acts s (copyFailed p t) := by
  simp [Machine.copyFailed, h]
@[simp] theorem Acts.copyRetry (r : Retry) (h : Acts s t) : Acts s (copyRetry r t) := by
  have : Acts s (t.setCopy { t.copy with state := .lineRetry, retry := some r }) :=
    h.setCopy rfl rfl (by simp)
  simp [Machine.copyRetry, this]
@[simp] theorem Acts.copyReadDone (p : PhysLine) (r : ReadResult) (d : LineData) (h : Acts s t) :
    Acts s (copyReadDone p r d t) := by
  unfold Machine.copyReadDone; split <;> (try split) <;> simp [h]
@[simp] theorem Acts.copyTransient (p : PhysLine) (h : Acts s t) : Acts s (copyTransient p t) := by
  simp [Machine.copyTransient, h]
@[simp] theorem Acts.copyRetryDone (p : PhysLine) (r : ReadResult) (d : LineData) (h : Acts s t) :
    Acts s (copyRetryDone p r d t) := by
  unfold Machine.copyRetryDone; split
  · simp [h]
  · simp [h]
  · simp [h]
  · split
    · split <;> simp [h]
    · simp [h]
@[simp] theorem Acts.abortReadCounts (i : Issue) (r : ReadResult) (h : Acts s t) :
    Acts s (abortReadCounts i r t) := by
  unfold Machine.abortReadCounts; split <;> (try split) <;> simp [h]
@[simp] theorem Acts.copyReadCompletes (i : Issue) (r : ReadResult) (d : LineData) (h : Acts s t) :
    Acts s (copyReadCompletes i r d t) := by
  have : Acts s (t.setCopy { t.copy with request := .absent }) := h.setCopy rfl rfl id
  unfold Machine.copyReadCompletes; dsimp only; split
  · simp [this]
  · split <;> simp [this]

theorem Acts.lineCopied (m : Bool) (h : Acts s t) :
    Acts s (Machine.modifyJobEntry (lineCopied t.copy.cursor m) t) := by
  refine h.modifyJobEntry (fun b => ⟨rfl, rfl⟩) (fun b hc _ => ?_)
  show t.copy.cursor + 1 ≤ 64
  omega

theorem removeHolder_copy (k : Holder) (t : State) : (removeHolder k t).copy = t.copy := by
  have hd : ∀ u : State, (divertHead u).copy = u.copy := by
    intro u; unfold divertHead; dsimp only; split <;> rfl
  have hr : ∀ u : State, (recheckHead u).copy = u.copy := by
    intro u; unfold recheckHead; split
    · split
      · exact hd u
      · rfl
    · rfl
  unfold removeHolder; split
  · rfl
  · dsimp only; split
    · rfl
    · split
      · rw [hr]; rfl
      · rw [hr]; rfl

theorem modifyJobEntry_copy (f : Binding → Binding) (t : State) : (modifyJobEntry f t).copy = t.copy := by
  unfold modifyJobEntry; split <;> rfl

@[simp] theorem Acts.slotWriteDone (j : CopyJob) (h : Acts s t) : Acts s (slotWriteDone j t) := by
  have h1 := h.lineCopied (markedWrite t.copy.writeKind)
  have e1 := modifyJobEntry_copy (Machine.lineCopied t.copy.cursor (markedWrite t.copy.writeKind)) t
  unfold Machine.slotWriteDone; dsimp only
  generalize Machine.modifyJobEntry (Machine.lineCopied t.copy.cursor (markedWrite t.copy.writeKind)) t = u at h1 e1 ⊢
  have h2 : Acts s (if markedWrite t.copy.writeKind then
      Machine.offer (carriedEvent j t.copy.cursor t.copy.writeKind) u else u) := by split <;> simp [h1]
  have e2 : (if markedWrite t.copy.writeKind then
      Machine.offer (carriedEvent j t.copy.cursor t.copy.writeKind) u else u).copy = t.copy := by
    split <;> exact e1
  generalize (if markedWrite t.copy.writeKind then
      Machine.offer (carriedEvent j t.copy.cursor t.copy.writeKind) u else u) = v at h2 e2 ⊢
  have h3 : Acts s (if t.copy.cursor < 63 then v else
      Machine.modifyJobEntry (fun b => { b with stage := .committing }) v) := by
    split
    · exact h2
    · exact h2.modifyJobEntry (fun _ => ⟨rfl, rfl⟩) (fun _ _ hb => hb)
  have e3 : (if t.copy.cursor < 63 then v else
      Machine.modifyJobEntry (fun b => { b with stage := .committing }) v).copy = t.copy := by
    split
    · exact e2
    · rw [modifyJobEntry_copy, e2]
  generalize (if t.copy.cursor < 63 then v else
      Machine.modifyJobEntry (fun b => { b with stage := .committing }) v) = w at h3 e3 ⊢
  have h4 := h3.removeHolder .copy
  have e4 : (Machine.removeHolder .copy w).copy = t.copy := by rw [removeHolder_copy, e3]
  generalize Machine.removeHolder .copy w = x at h4 e4 ⊢
  have h5 : Acts s (x.setCopy { x.copy with data := none, writeKind := none, retry := none }) :=
    h4.setCopy rfl rfl id
  split
  · refine Acts.takeLine (h5.tail (.copy _ _ (fun _ => ?_) (.inl ⟨rfl, id⟩)))
    show t.copy.cursor + 1 ≤ 63
    omega
  · exact Acts.sendAssign (h5.setCopy rfl rfl (by simp))

@[simp] theorem Acts.copyWriteCompletes (i : Issue) (h : Acts s t) :
    Acts s (copyWriteCompletes i t) := by
  have : Acts s (t.setCopy { t.copy with request := .absent }) := h.setCopy rfl rfl id
  unfold Machine.copyWriteCompletes; dsimp only; split
  · exact this
  · split
    · exact Acts.stepEnded (this.lineCopied _)
    · simp [this]
@[simp] theorem Acts.copyStepFailed (h : Acts s t) : Acts s (copyStepFailed t) := by
  unfold Machine.copyStepFailed; split <;> simp [h]

end Sys2Proof.Machine
end

