-- ==== Sys2Proof/Laws/Bytes.lean ====
section
/-! SUPPORT. Laws of the operand forms: multi-byte numbers, frames, checked records, and the flags that an
offered event sets. -/

namespace Sys2Proof.Machine

/-- Bytes written from a number that fits read back as it. -/
theorem leNat_leBytes (w n : Nat) (h : n < 256 ^ w) : leNat (leBytes w n) = n := by
  induction w generalizing n with
  | zero => simp at h; simp [leNat, leBytes, h]
  | succ w ih =>
    have : n / 256 < 256 ^ w := by rw [pow_succ] at h; omega
    have := ih _ this
    simp only [leNat, leBytes, List.foldr] at this ⊢
    rw [this]; simp; omega

@[simp] theorem leBytes_length (w n : Nat) : (leBytes w n).length = w := by
  induction w generalizing n with
  | zero => rfl
  | succ w ih => simp [leBytes, ih]

theorem byteSum_append (a b : List Byte) : byteSum (a ++ b) = byteSum a + byteSum b := by
  unfold byteSum
  rw [List.foldl_append]
  generalize List.foldl (· + ·) 0 a = x
  induction b generalizing x with
  | nil => simp
  | cons y ys ih => simp only [List.foldl]; rw [ih, ih (0 + y)]; simp [BitVec.add_assoc]

/-- The check byte makes a frame sum to 0. -/
theorem byteSum_frameOf (c : Byte) (ps : List Byte) : byteSum (frameOf c ps) = 0 := by
  simp only [frameOf]; rw [byteSum_append]; simp [checkByte, byteSum, BitVec.add_comm]

theorem frameLengthOk_frameOf (c : Byte) (ps : List Byte) (h : ps.length ≤ 24) :
    frameLengthOk (frameOf c ps) = true := by
  simp [frameLengthOk, frameOf, byteOf]; omega

/-- Fourteen bytes with their CRC are sixteen bytes whose CRC is right. -/
theorem crcOk_withCrc (l : List Byte) (h : l.length = 14) :
    crcOk (withCrc l) = true ∧ (withCrc l).length = 16 := by
  have e : (withCrc l).length = 16 := by simp [withCrc, h]
  refine ⟨?_, e⟩
  have h1 : (withCrc l).drop 14 = leBytes 2 (crc16 l).toNat := by simp [withCrc, ← h]
  have h2 : (withCrc l).take 14 = l := by simp [withCrc, ← h]
  rw [crcOk, e, h1, h2, leNat_leBytes _ _ (by have := (crc16 l).isLt; simpa using this)]; simp

/-! ### A frame that is a command -/

/-- A command that no check refuses is taken: its body runs on the state with the frame taken. -/
theorem takeCommand_taken {a l : Bool} {ps : List Byte} {f : State → State} {s : State}
    (hb : s.link.busy = false) (ha : a = true) (hl : l = true) (hn : ps.length ≤ 24) :
    takeCommand a l ps f s = f (takeFrame s) := by
  have : ¬ 24 < ps.length := by omega
  simp [takeCommand, hb, ha, hl, this]

/-! ### Flags -/

theorem setFlag_self (f : BitVec 8) (k : Nat) (h : k < 8) : (setFlag f k).getLsbD k = true := by
  simp [setFlag, h]
theorem setFlag_keeps (f : BitVec 8) (j k : Nat) (h : f.getLsbD k = true) :
    (setFlag f j).getLsbD k = true := by simp [setFlag, h]
theorem reportLost_flags (p : BitVec 16) (q : Events) : (reportLost p q).flags = q.flags := by
  unfold reportLost; split <;> rfl
theorem storeOrLose_flags (p : BitVec 16) (e : Event) (q : Events) (k : Nat)
    (h : q.flags.getLsbD k = true) : (storeOrLose p e q).flags.getLsbD k = true := by
  unfold storeOrLose loseRecord; split
  · exact h
  · dsimp only; split
    · exact setFlag_keeps _ _ _ h
    · exact h

/-- An offered event sets its category's flag (R151). -/
theorem offer_sets_flag (e : Event) (s : State) :
    (offer e s).events.flags.getLsbD (categoryBit e.kind) = true := by
  refine storeOrLose_flags _ _ _ _ ?_
  rw [reportLost_flags]
  exact setFlag_self _ _ (by cases e.kind <;> decide)

/-- A flag that is set stays set when an event is offered (R151). -/
theorem offer_keeps_flag (e : Event) (s : State) (k : Nat) (h : s.events.flags.getLsbD k = true) :
    (offer e s).events.flags.getLsbD k = true := by
  refine storeOrLose_flags _ _ _ _ ?_
  rw [reportLost_flags]
  exact setFlag_keeps _ _ _ h

/-! ### The bus -/

/-- The part's own address is the one it acknowledges (R154). -/
@[simp] theorem acksAddress_own (s : State) : acksAddress (ownAddress s) s = true := by
  have h := s.pins.addr.isLt
  simp [acksAddress, ownAddress, linkAddress]; omega

/-- A write transaction to the part's own address is taken as one. -/
@[simp] theorem busWrite_own (bytes : List Byte) (s : State) :
    busWrite (ownAddress s) bytes s = takeTransaction bytes s := by simp [busWrite]

/-- A write transaction to another address changes nothing (R154). -/
theorem busWrite_other {addr : BitVec 7} {s : State} (h : acksAddress addr s = false) (bytes : List Byte) :
    busWrite addr bytes s = s := by simp [busWrite, h]

end Sys2Proof.Machine
end

