-- ==== Sys2Proof/Laws/Chains.lean ====
section
/-! SUPPORT. Every command but a full reset is a chain of acts (`acts_of_exec`), through one lemma for each
operation of the journal controller, the host port, the memory port and the management link. -/

namespace Sys2Proof.Machine

variable {s t : State}

/-! ### The journal controller -/

theorem Acts.setJournal {v : Journal} (hv : v.task = t.journal.task) (h : Acts s t) :
    Acts s (t.setJournal v) := h.tail (.journal t v (by rw [hv]; exact id) (by rw [hv]; exact id))

/-- The controller may take up any work but start-up work. -/
theorem Acts.setWork {v : Journal} (hw : startWork v.task = false) (h : Acts s t) : Acts s (t.setJournal v) := by
  refine h.tail (.journal t v (by simp [hw]) fun hb => ?_)
  cases hv : v.task <;> simp_all [startWork, beforeRecords]

theorem Acts.setTask {k : Task} (hw : startWork k = false) (h : Acts s t) : Acts s (setTask k t) := h.setWork hw

/-- During start-up work the controller may go on to records, or to any start-up work but a header read. -/
theorem Acts.setStartTask {k : Task} (hs : startWork t.journal.task = true) (hb : beforeRecords k = false)
    (h : Acts s t) : Acts s (Machine.setTask k t) :=
  h.tail (.journal t _ (fun _ => hs) (fun hk => by simp [hb] at hk))

@[simp] theorem Acts.dropRequest (h : Acts s t) : Acts s (dropRequest t) := h.setJournal rfl
@[simp] theorem Acts.setStore (v : Store) (h : Acts s t) : Acts s (setStore v t) := h.setJournal rfl
@[simp] theorem Acts.journalFlags (v : Bool) (h : Acts s t) : Acts s (t.setRemap (journalFlags v t.remap)) :=
  h.tail (.journaled t v)
@[simp] theorem Acts.storeOffline (h : Acts s t) : Acts s (storeOffline t) := (h.setStore _).journalFlags false
@[simp] theorem Acts.recordReported (k : RecordKind) (w : Bool) (h : Acts s t) :
    Acts s (recordReported k w t) := by unfold Machine.recordReported; split <;> simp [h]
@[simp] theorem Acts.reportRecord (r : JRecord) (w : Bool) (h : Acts s t) : Acts s (reportRecord r w t) :=
  h.dropRequest.recordReported _ _
@[simp] theorem Acts.serveCommand (h : Acts s t) : Acts s (serveCommand t) := h.dropRequest.answer _ _

theorem Acts.startupComplete (hw : startWork t.journal.task = false) (h : Acts s t) :
    Acts s (startupComplete t) := by
  unfold Machine.startupComplete; split
  · rename_i hm
    have h1 := h.tail (.online t hm hw)
    exact Acts.ite h1.startTimer h1
  · exact h

theorem offerResumed_journal (p : OpenPair) (u : State) : (offerResumed p u).journal = u.journal := by
  unfold offerResumed; split <;> rfl

theorem Acts.offerResumed (p : OpenPair) (hw : startWork t.journal.task = false) (h : Acts s t) :
    Acts s (offerResumed p t) := by
  unfold Machine.offerResumed; split
  · rename_i ha; exact (h.tail (.enqueue t _ _ ha fun _ => hw)).offer _
  · exact h.offer _
  · exact h.offer _
  · exact h.offer _

theorem Acts.offerAll (l : List OpenPair) (hw : startWork t.journal.task = false) (h : Acts s t) :
    Acts s (l.foldl (fun u p => Machine.offerResumed p u) t) := by
  induction l generalizing t with
  | nil => exact h
  | cons p l ih => exact ih (by rw [offerResumed_journal]; exact hw) (h.offerResumed p hw)

@[simp] theorem Acts.endReplay (l : List OpenPair) (h : Acts s t) : Acts s (endReplay l t) := by
  have h1 := (h.setTask (k := .idle) rfl).offerAll l rfl
  have hw : startWork (l.foldl (fun u p => Machine.offerResumed p u) (Machine.setTask .idle t)).journal.task
      = false := by
    rw [foldl_keeps (g := State.journal) (fun u a => offerResumed_journal a u)]; rfl
  unfold Machine.endReplay; dsimp only
  split
  · exact (h1.setStore _).startupComplete hw
  · exact h1.startupComplete hw

theorem Acts.beginReplay (hb : beforeRecords t.journal.task = true) (h : Acts s t) : Acts s (beginReplay t) := by
  unfold Machine.beginReplay; split
  · exact h.endReplay _
  · refine h.tail (.journal t _ (fun _ => ?_) (fun _ => hb))
    cases ht : t.journal.task <;> simp_all [beforeRecords, startWork]

@[simp] theorem Acts.endCleaning (h : Acts s t) : Acts s (endCleaning t) :=
  ((h.setTask (k := .idle) rfl).startupComplete rfl).answer _ _

theorem Acts.faultEnds (k : Task) (hw : startWork t.journal.task = false) (h : Acts s t) :
    Acts s (faultEnds k t) := by
  unfold Machine.faultEnds; split
  · split <;> simp [h]
  · split <;> simp [h]
  all_goals first | exact h | exact h.serveCommand | exact h.endCleaning | exact h.startupComplete hw

@[simp] theorem Acts.storeFault (v : Nat) (x : Option HalfId) (m : Bool) (h : Acts s t) :
    Acts s (storeFault v x m t) :=
  Acts.faultEnds _ rfl (Acts.setWork rfl (h.storeOffline.offer _))

@[simp] theorem Acts.beginCompact (c : CompactCause) (x : HalfId) (h : Acts s t) :
    Acts s (beginCompact c x t) := h.setWork rfl
@[simp] theorem Acts.headerStep (c : CompactCause) (x : HalfId) (h : Acts s t) : Acts s (headerStep c x t) :=
  Acts.ite (h.storeFault _ _ _) (h.setTask rfl)
@[simp] theorem Acts.snapshotStep (c : CompactCause) (x : HalfId) (i : Nat) (h : Acts s t) :
    Acts s (snapshotStep c x i t) := Acts.ite (h.setTask rfl) (h.headerStep _ _)
@[simp] theorem Acts.reconcile (w : List JRecord) (h : Acts s t) : Acts s (reconcile w t) := by
  unfold Machine.reconcile; split
  · exact h.setTask rfl
  · exact (((h.setStore _).setTask rfl).journalFlags true).serveCommand
@[simp] theorem Acts.serveHead (h : Acts s t) : Acts s (serveHead t) := by
  unfold Machine.serveHead; split
  · exact h
  · split
    · exact Acts.ite (h.setTask rfl) (h.beginCompact _ _)
    · simp [h]
  · exact Acts.ite (h.beginCompact _ _) h.serveCommand
  · exact h.setTask rfl
  · exact (Acts.ite h.storeOffline h).serveCommand
@[simp] theorem Acts.serveWaiting (n : Nat) (h : Acts s t) : Acts s (serveWaiting n t) := by
  induction n generalizing t with
  | zero => exact h
  | succ n ih => exact Acts.ite (ih h.serveHead) h
@[simp] theorem Acts.settle (h : Acts s t) : Acts s (settle t) :=
  ((((((h.serveWaiting _).abortEndIfDue).considerStart).serveWaiting _).copyReadIfDue).sweepReadIfDue)

theorem Acts.headerVerified (c : CompactCause) (x : HalfId) (h : Acts s t) :
    Acts s (headerVerified c x t) := by
  have h1 : Acts s (t.setJournal { t.journal with
      live := some x, epoch := t.journal.epoch + 1, next := (t.journal.snapshot.getD []).length + 1
      snapshot := none }) := Acts.setJournal rfl h
  unfold Machine.headerVerified
  dsimp only
  generalize t.setJournal { t.journal with
      live := some x, epoch := t.journal.epoch + 1, next := (t.journal.snapshot.getD []).length + 1
      snapshot := none } = u at h1 ⊢
  cases c
  · exact (h1.offer _).setTask rfl
  · exact ((h1.offer _).setTask (k := .idle) rfl).serveCommand
  · exact (h1.offer _).reconcile _

@[simp] theorem Acts.verified (h : Acts s t) : Acts s (verified t) := by
  have hp : Acts s (positionUsed t) := Acts.setJournal rfl h
  have hl : Acts s (liveA t) := Acts.setJournal rfl h
  unfold Machine.verified; split
  · split
    · exact (hp.setTask rfl).reportRecord _ _
    · exact h
  · exact h.snapshotStep _ _ _
  · exact h.headerVerified _ _
  · exact hp.reconcile _
  · exact hl.endReplay _
  · exact (hl.setStore _).endCleaning
  · exact h

@[simp] theorem Acts.erased (h : Acts s t) : Acts s (erased t) := by
  unfold Machine.erased; split
  · rename_i ht; exact h.setStartTask (by rw [ht]; rfl) rfl
  · rename_i ht; exact h.setStartTask (by rw [ht]; rfl) rfl
  · rename_i ht; exact h.setStartTask (by rw [ht]; rfl) rfl
  · exact h.snapshotStep _ _ _
  · exact h

theorem Acts.replayPosition {p : Nat} {l : List OpenPair} (b : List Byte)
    (ht : t.journal.task = .replayRecords p l) (h : Acts s t) : Acts s (replayPosition p l b t) := by
  have go : ∀ (u : State) (m : List OpenPair), u.journal.task = .replayRecords p l → Acts s u →
      Acts s (replayGoesOn p m u) := fun u m hu hs =>
    Acts.ite (hs.setStartTask (by rw [hu]; rfl) rfl) (Acts.endReplay _ (hs.setJournal rfl))
  unfold Machine.replayPosition; split
  · exact Acts.endReplay _ (h.setJournal rfl)
  · split
    · exact go _ _ ht (h.offer _)
    · rename_i r hr
      have : (Machine.replayGood r l t).journal = t.journal := by
        unfold replayGood replayAssign; split
        · split
          · split <;> rfl
          · rfl
        · split <;> rfl
        · rfl
      refine go _ _ (by rw [this, ht]) ?_
      unfold replayGood replayAssign; split
      · split
        · rename_i hc
          split
          · rename_i e he
            exact h.tail (.restore t r e (by rw [ht]; rfl) (by rw [ht]; rfl) hc he)
          · exact h
        · exact h.offer _
      · exact Acts.ite (h.offer _) h
      · exact h

theorem Acts.reportDamaged (x : HalfId) (b : List Byte) (h : Acts s t) : Acts s (reportDamaged x b t) :=
  Acts.ite (h.offer _) h

theorem reportDamaged_eq (x : HalfId) (b : List Byte) (u : State) :
    ∃ e, reportDamaged x b u = u.setEvents e := by
  unfold reportDamaged; split
  · exact ⟨_, rfl⟩
  · exact ⟨u.events, rfl⟩

theorem chooseLive_valid {a b : List Byte} {x : HalfId} {hd : Header} (h : chooseLive a b = some (x, hd)) :
    hd.geom.valid = true := by
  have hv : ∀ (c : List Byte) (y : Header), validHeader c = some y → y.geom.valid = true := by
    intro c y hy; unfold validHeader at hy; split at hy
    · rename_i hc; cases hy; exact hc.2.2.2
    · cases hy
  unfold chooseLive at h
  split at h
  · cases h
  · rename_i hx hy; cases h; exact hv _ _ hx
  · rename_i hx hy; cases h; exact hv _ _ hy
  · rename_i hx hy
    split at h
    · cases h; exact hv _ _ hy
    · cases h; exact hv _ _ hx

theorem Acts.replayChoose {a : List Byte} (b : List Byte) (ht : t.journal.task = .replayHeaders (some a))
    (h : Acts s t) : Acts s (replayChoose a b t) := by
  have h1 := (h.reportDamaged .a a).reportDamaged .b b
  have hj : (Machine.reportDamaged .b b (Machine.reportDamaged .a a t)).journal = t.journal := by
    obtain ⟨e, he⟩ := reportDamaged_eq .b b (Machine.reportDamaged .a a t)
    obtain ⟨f, hf⟩ := reportDamaged_eq .a a t
    rw [he, hf]; rfl
  unfold Machine.replayChoose; dsimp only
  generalize Machine.reportDamaged .b b (Machine.reportDamaged .a a t) = u at h1 hj ⊢
  have hu : u.journal.task = .replayHeaders (some a) := by rw [hj, ht]
  split
  · exact h1.setStartTask (by rw [hu]; rfl) rfl
  · rename_i x hd hc
    have h2 := h1.tail (.geom u hd.geom (chooseLive_valid hc) fun hb =>
      ⟨hb.startTable (by rw [hu]; rfl), hb.startQueue (by rw [hu]; rfl)⟩)
    refine h2.tail (.journal _ _ (fun _ => ?_) (fun hb => ?_))
    · show startWork u.journal.task = true
      rw [hu]; rfl
    · cases hb

@[simp] theorem Acts.readPosition (b : List Byte) (h : Acts s t) : Acts s (readPosition b t) := by
  unfold Machine.readPosition; split
  · rename_i ht; exact h.tail (.journal t _ (fun _ => by rw [ht]; rfl) (fun _ => by rw [ht]; rfl))
  · rename_i ht; exact h.replayChoose _ ht
  · rename_i ht; exact h.replayPosition _ ht
  · rename_i ht; exact h.setStartTask (by rw [ht]; rfl) rfl
  · rename_i ht
    exact Acts.setStartTask (t := setChosen _ b t) (by show startWork t.journal.task = true; rw [ht]; rfl) rfl
      (h.setJournal rfl)
  · exact h.setTask rfl
  · exact Acts.beginCompact _ _ (h.setJournal rfl)
  · exact h

/-! ### The host port -/

@[simp] theorem Acts.countTaken (o : HostOp) (h : Acts s t) : Acts s (countTaken o t) := by
  unfold Machine.countTaken; split <;> simp [h]
@[simp] theorem Acts.answerRefused (k : HostTag) (o : HostOp) (h : Acts s t) : Acts s (answerRefused k o t) := by
  unfold Machine.answerRefused; split
  · exact (h.setStats _).answerRead _ _ _
  · exact (h.setStats _).answerWrite _ _

theorem Acts.admitRequest {k : HostTag} {o : HostOp} {n : HostLine} (hl : t.hold.length < 8) (h : Acts s t) :
    Acts s (admitRequest k o n t) := by
  unfold Machine.admitRequest; dsimp only
  have h1 : ∀ r : HostRec, Acts s ((Machine.setRecord k (some r) (Machine.countTaken o t)).setHost
      { (Machine.setRecord k (some r) (Machine.countTaken o t)).host with
        arrivals := (Machine.setRecord k (some r) (Machine.countTaken o t)).host.arrivals + 1 }) :=
    fun r => Acts.setHost rfl ((h.countTaken o).setRecord k (some r))
  have e1 : (Machine.countTaken o t).hold = t.hold := by unfold Machine.countTaken; split <;> rfl
  refine Acts.ite (Acts.setStats _ ((h1 _).tail (.hold _ _ fun _ => ?_))) ((h1 _).setHost rfl)
  show ((Machine.countTaken o t).hold ++ [k]).length ≤ 8
  rw [e1]; simp; omega

@[simp] theorem Acts.takeRequest (k : HostTag) (o : HostOp) (n : HostLine) (h : Acts s t) :
    Acts s (takeRequest k o n t) := by
  unfold Machine.takeRequest; split
  · exact h
  · rename_i ha
    refine Acts.ite (h.offer _) (Acts.ite (h.answerRefused _ _) (Acts.ite ((h.countTaken _).answerWrite _ _)
      (h.admitRequest ?_)))
    simp [accept] at ha; exact ha.1.2

@[simp] theorem Acts.pushFollowOn (i : Issue) (h : Acts s t) : Acts s (pushFollowOn i t) := h.setHost rfl
@[simp] theorem Acts.setLadder (k : Fin 4) (l : Option Ladder) (h : Acts s t) : Acts s (setLadder k l t) :=
  h.setHost rfl
@[simp] theorem Acts.hostFixed (p : PhysLine) (h : Acts s t) : Acts s (hostFixed p t) :=
  Acts.ite ((h.healthIncrement _ _ _).offer _) (h.healthIncrement _ _ _)
@[simp] theorem Acts.hostFailed (k : HostTag) (p : PhysLine) (n : Nat) (h : Acts s t) :
    Acts s (hostFailed k p n t) := (((h.answerRead _ _ _).healthIncrement _ _ _).offer _).setStats _
@[simp] theorem Acts.startLadder (k : Fin 4) (g : HostTag) (p : PhysLine) (h : Acts s t) :
    Acts s (startLadder k g p t) := (((h.setLadder _ _).addHolder _ (by simp)).modifyRecord _ _).pushFollowOn _
@[simp] theorem Acts.hostReadFailed (g : HostTag) (p : PhysLine) (h : Acts s t) :
    Acts s (hostReadFailed g p t) := by
  unfold Machine.hostReadFailed; split
  · simp [h]
  · split <;> simp [h]
@[simp] theorem Acts.hostReadDone (g : HostTag) (p : PhysLine) (r : ReadResult) (d : LineData)
    (h : Acts s t) : Acts s (hostReadDone g p r d t) := by
  unfold Machine.hostReadDone; split <;> simp [h]
@[simp] theorem Acts.endLadder (k : Fin 4) (h : Acts s t) : Acts s (endLadder k t) :=
  (h.setLadder _ _).removeHolder _
@[simp] theorem Acts.hostTransient (p : PhysLine) (n : Nat) (h : Acts s t) : Acts s (hostTransient p n t) :=
  (h.offer _).setStats _
@[simp] theorem Acts.ladderDone (k : Fin 4) (l : Ladder) (r : ReadResult) (d : LineData) (h : Acts s t) :
    Acts s (ladderDone k l r d t) := by
  unfold Machine.ladderDone; split
  · exact ((h.answerRead _ _ _).hostTransient _ _).endLadder _
  · exact (((h.answerRead _ _ _).hostTransient _ _).hostFixed _).endLadder _
  · exact (h.answerRead _ _ _).endLadder _
  · exact Acts.ite (h.pushFollowOn _) ((h.hostFailed _ _ _).endLadder _)
@[simp] theorem Acts.hostReadCompletes (i : Issue) (r : ReadResult) (d : LineData) (h : Acts s t) :
    Acts s (hostReadCompletes i r d t) := by
  unfold Machine.hostReadCompletes; split
  · exact Acts.ite (h.hostReadDone _ _ _ _) h
  · split
    · split
      · exact h.ladderDone _ _ _ _
      · exact h
    · exact h
  · exact h
@[simp] theorem Acts.hostWriteCompletes (i : Issue) (h : Acts s t) : Acts s (hostWriteCompletes i t) := by
  unfold Machine.hostWriteCompletes; split
  · exact Acts.ite (h.finishHalf _ _ _) h
  · exact h
@[simp] theorem Acts.hostRequestFailed (i : Issue) (h : Acts s t) : Acts s (hostRequestFailed i t) := by
  unfold Machine.hostRequestFailed; split
  · exact Acts.ite (h.answerRead _ _ _) h
  · exact Acts.ite ((h.answerRead _ _ _).endLadder _) h
  · exact Acts.ite (h.finishHalf _ _ _) h
  · exact h
@[simp] theorem Acts.hostPathReset (h : Acts s t) : Acts s (hostPathReset t) :=
  Acts.offer _ (Acts.setLocks rfl (Acts.setHold (Nat.zero_le _) (Acts.setHost rfl (h.setPins _))))

/-! ### The memory port -/

@[simp] theorem Acts.setTag (g : PortTag) (v : TagState) (h : Acts s t) : Acts s (setTag g v t) :=
  h.tail (.port t _ id)
@[simp] theorem Acts.enterFence (p : PhysLine) (h : Acts s t) : Acts s (enterFence p t) :=
  Acts.ite h ((((h.tail (.fence t)).offer _).copyFence).sweepFence)
@[simp] theorem Acts.reissue (i : Issue) (h : Acts s t) : Acts s (reissue i t) := by
  unfold Machine.reissue; split
  · exact Acts.ite (h.pushFollowOn _) h
  · exact Acts.ite (h.pushFollowOn _) h
  · exact Acts.ite (h.pushFollowOn _) (h.pushFollowOn _)
  · exact h.pushFollowOn _
  all_goals first | exact h.setCopy rfl rfl id | exact h.setSweep rfl
@[simp] theorem Acts.tellFailed (i : Issue) (h : Acts s t) : Acts s (tellFailed i t) := by
  unfold Machine.tellFailed; split <;> simp [h]
@[simp] theorem Acts.requestError (i : Issue) (o : Bool) (h : Acts s t) : Acts s (requestError i o t) :=
  Acts.ite (((h.offer _).enterFence _).tellFailed _) ((h.offer _).reissue _)
@[simp] theorem Acts.completeIssue (i : Issue) (c : Condition) (d : LineData) (h : Acts s t) :
    Acts s (completeIssue i c d t) := by
  unfold Machine.completeIssue; split
  · split
    · unfold readCompletes; split <;> simp [h]
    · simp [h]
  · split
    · unfold writeCompletes; split <;> simp [h]
    · simp [h]
@[simp] theorem Acts.portResponse (g : PortTag) (c : Condition) (d : LineData) (h : Acts s t) :
    Acts s (portResponse g c d t) := by
  unfold Machine.portResponse; split
  · exact h
  · exact h.setTag _ _
  · exact ((h.setTag _ _).completeIssue _ _ _).settle
@[simp] theorem Acts.portTimeout (g : PortTag) (h : Acts s t) : Acts s (portTimeout g t) := by
  unfold Machine.portTimeout; split
  · exact (((h.setTag _ _).offer _).requestError _ _).settle
  · exact h
  · exact h
@[simp] theorem Acts.countLadder (i : Issue) (h : Acts s t) : Acts s (countLadder i t) := by
  unfold Machine.countLadder; split
  · exact Acts.ite h (h.setLadder _ _)
  · exact h
@[simp] theorem Acts.issueRequest (g : PortTag) (k : HostTag) (r : HostRec) (h : Acts s t) :
    Acts s (issueRequest g k r t) := by
  unfold Machine.issueRequest; split
  · exact (h.setRecord _ _).setTag _ _
  · dsimp only; split
    · exact ((h.setRecord _ _).setTag _ _).pushFollowOn _
    · exact (h.setRecord _ _).setTag _ _
@[simp] theorem Acts.grantForeground (g : PortTag) (h : Acts s t) : Acts s (grantForeground g t) := by
  unfold Machine.grantForeground; split
  · exact Acts.setTag _ _ (Acts.countLadder _ (Acts.setHost rfl h))
  · split
    · exact h
    · dsimp only; split
      · exact Acts.issueRequest _ _ _ (h.setHost rfl)
      · exact h.setHost rfl
@[simp] theorem Acts.grantBackground (g : PortTag) (h : Acts s t) : Acts s (grantBackground g t) := by
  unfold Machine.grantBackground; split
  · exact Acts.setTag _ _ (Acts.setCopy rfl rfl id h)
  · split
    · exact Acts.setTag _ _ (Acts.setSweep rfl h)
    · exact h
@[simp] theorem Acts.arbitrate (h : Acts s t) : Acts s (arbitrate t) := by
  unfold Machine.arbitrate; split
  · split
    · refine Acts.ite ((h.grantForeground _).tail (.port _ _ fun _ => ?_))
        ((h.grantBackground _).tail (.port _ _ fun _ => ?_))
      · dsimp only; split <;> omega
      · exact Nat.zero_le _
    · exact h
  · exact h

/-! ### The management link -/

theorem Acts.takeCommand {a l : Bool} {ps : List Byte} {f : State → State}
    (hf : a = true → l = true → Acts s (f (Machine.takeFrame t))) (h : Acts s t) :
    Acts s (takeCommand a l ps f t) := by
  unfold Machine.takeCommand
  refine Acts.ite h (Acts.ite (h.answer _ _) ?_)
  cases a
  · exact h.answer _ _
  · cases l
    · exact h.answer _ _
    · exact hf rfl rfl

theorem Acts.startBody (hb : beforeRecords t.journal.task = true) (h : Acts s t) : Acts s (startBody t) :=
  ((h.beginReplay hb).answer _ _).settle
theorem Acts.cleanBody (hb : t.journal.task = .hold) (h : Acts s t) : Acts s (cleanBody t) :=
  Acts.ite h.endCleaning.settle (h.setStartTask (by rw [hb]; rfl) rfl)

theorem ParamsSound.set {p : Params} (id v : Nat) (hr : paramInRange id v = true) (hp : ParamsSound p) :
    (id = 1 → ParamsSound { p with fixedThreshold := v }) ∧ (id = 2 → ParamsSound { p with failedThreshold := v }) ∧
    (id = 4 → ParamsSound { p with retryLimit := v }) ∧ (id = 5 → ParamsSound { p with sweepInterval := v }) ∧
    (id = 6 → ParamsSound { p with accelThreshold := v }) ∧ (id = 9 → ParamsSound { p with bgShare := v }) := by
  obtain ⟨h1, h2, h3, h4, h5, h6⟩ := hp
  refine ⟨?_, ?_, ?_, ?_, ?_, ?_⟩ <;> rintro rfl <;> simp [paramInRange, paramRange] at hr <;>
    constructor <;> simp_all

theorem Acts.setParams {v : Params} (hv : ParamsSound t.params → ParamsSound v) (h : Acts s t) :
    Acts s (t.setParams v) := h.tail (.params t v hv)

/-- The parameters with a range of Boolean or byte kind are sound at every value. -/
theorem ParamsSound.flags {p q : Params} (h1 : q.fixedThreshold = p.fixedThreshold)
    (h2 : q.failedThreshold = p.failedThreshold) (h3 : q.retryLimit = p.retryLimit)
    (h4 : q.sweepInterval = p.sweepInterval) (h5 : q.accelThreshold = p.accelThreshold)
    (h6 : q.bgShare = p.bgShare) (hp : ParamsSound p) : ParamsSound q := by
  obtain ⟨a, b, c, d, e, f⟩ := hp
  exact ⟨h1 ▸ a, h2 ▸ b, h3 ▸ c, h4 ▸ d, h5 ▸ e, h6 ▸ f⟩

@[simp] theorem Acts.sweepStopNow (h : Acts s t) : Acts s (sweepStopNow t) := by
  have h1 := h.setParams (v := { t.params with sweepEnable := false }) (ParamsSound.flags rfl rfl rfl rfl rfl rfl)
  unfold Machine.sweepStopNow; dsimp only; split
  · exact h1.setSweep rfl
  · rename_i hl
    exact Acts.ite (h1.sweepHalt (.inr (by simpa using hl))) h1
@[simp] theorem Acts.sweepStartNow (h : Acts s t) : Acts s (sweepStartNow t) := by
  have h1 := h.setParams (v := { t.params with sweepEnable := true }) (ParamsSound.flags rfl rfl rfl rfl rfl rfl)
  unfold Machine.sweepStartNow; dsimp only; split
  · split
    · exact h1.setSweep rfl
    · rename_i hl
      exact Acts.ite (h1.sweepWait (.inr (by simpa using hl))) h1
  · exact h1

theorem Acts.applyParam {id v : Nat} (hr : paramInRange id v = true) (h : Acts s t) :
    Acts s (applyParam id v t) := by
  unfold Machine.applyParam; split
  · exact h.setParams fun hp => (hp.set _ _ hr).1 rfl
  · exact h.setParams fun hp => (hp.set _ _ hr).2.1 rfl
  · exact h.setParams (ParamsSound.flags rfl rfl rfl rfl rfl rfl)
  · exact h.setParams fun hp => (hp.set _ _ hr).2.2.1 rfl
  · exact Acts.setSweep rfl (h.setParams fun hp => (hp.set _ _ hr).2.2.2.1 rfl)
  · exact h.setParams fun hp => (hp.set _ _ hr).2.2.2.2.1 rfl
  · exact Acts.ite h.sweepStartNow h.sweepStopNow
  · exact h.setParams (ParamsSound.flags rfl rfl rfl rfl rfl rfl)
  · exact h.setParams fun hp => (hp.set _ _ hr).2.2.2.2.2 rfl
  · exact h.setParams (ParamsSound.flags rfl rfl rfl rfl rfl rfl)
  · exact h.setParams (ParamsSound.flags rfl rfl rfl rfl rfl rfl)
  · exact h

theorem tablesInUse_false (h : tablesInUse t = false) :
    (∀ i : Fin 128, t.remap[i] = none) ∧ t.retire = [] ∧ t.copy.state = .idle := by
  simp only [tablesInUse, Bool.or_eq_false_iff, bne_eq_false_iff_eq, Bool.not_eq_false',
    List.isEmpty_iff, Option.isSome_eq_false_iff, Option.isNone_iff_eq_none] at h
  refine ⟨fun i => ?_, h.1.2, h.2⟩
  have := (lowestIndex_eq_none_iff _ _).1 h.1.1 i
  simpa using this

theorem Acts.setGeometryBody (g : Geometry) (h : Acts s t) : Acts s (setGeometryBody g t) := by
  unfold Machine.setGeometryBody; split
  · exact h.answer _ _
  · rename_i hv; split
    · exact h.answer _ _
    · rename_i hu
      have hu := tablesInUse_false (by simpa using hu)
      have h1 : Acts s (replaceGeometry g t) := by
        unfold replaceGeometry; dsimp only; split
        · exact (h.tail (.geom t g (by simpa using hv) fun _ => ⟨hu.1, hu.2.1⟩)).sweepReposition
        · have h2 := h.tail (.health t emptyHealth fun _ => HealthSound.empty)
          exact (h2.tail (.geom _ g (by simpa using hv) fun _ => ⟨hu.1, hu.2.1⟩)).sweepReposition
      exact Acts.ite (h1.enqueueRequest _).settle (h1.answer _ _)

theorem Acts.retireSpanBody (n : Nat) (hm : t.mode = .online) (h : Acts s t) : Acts s (retireSpanBody n t) := by
  unfold Machine.retireSpanBody; split
  · split
    · rename_i ha; exact ((h.takeSpan _ _ ha hm).answer _ _).settle
    all_goals exact h.answer _ _
  · exact h.answer _ _

theorem Acts.cancelRetireBody (n : Nat) (h : Acts s t) : Acts s (cancelRetireBody n t) := by
  unfold Machine.cancelRetireBody; split
  · split
    · exact ((h.tail (.dequeue t _ List.filter_sublist)).offer _).answer _ _
    · split
      · exact h.answer _ _
      · split
        · exact ((h.beginAbort _).answer _ _).settle
        all_goals exact h.answer _ _
  · exact h.answer _ _

theorem Acts.rawShifted (c : Bool) (l : List Byte) (h : Acts s t) : Acts s (rawShifted c l t) :=
  ((Acts.ite (h.setTask rfl) h).answer _ _).settle

theorem Acts.rawShiftBody (ps : List Byte) (h : Acts s t) : Acts s (rawShiftBody ps t) := by
  unfold Machine.rawShiftBody
  refine Acts.ite (h.answer _ _) (Acts.ite (h.answer _ _) (Acts.ite (h.answer _ _) ?_))
  exact Acts.ite ((h.setTask rfl).rawShifted _ _) ((h.setTask rfl).setLink _)

theorem Acts.runCode (c : Nat) (ps : List Byte) (h : Acts s t) : Acts s (runCode c ps t) := by
  have hf := h.takeFrame
  unfold Machine.runCode; split
  · exact h.takeCommand fun ha _ => hf.startBody (by
      simp only [inHold, beq_iff_eq] at ha; show beforeRecords t.journal.task = true; rw [ha]; rfl)
  · exact h.takeCommand fun ha _ => hf.cleanBody (by
      simp only [inHold, beq_iff_eq] at ha; exact ha)
  · refine h.takeCommand fun _ _ => Acts.ite (hf.answer _ _) ?_
    split <;> exact hf.answer _ _
  · refine h.takeCommand fun _ _ => ?_
    unfold setParamBody; split
    · rename_i hr; exact (hf.applyParam hr).answer _ _
    · exact hf.answer _ _
  · exact h.takeCommand fun _ _ => hf.setGeometryBody _
  · refine h.takeCommand fun _ _ => ?_
    unfold readRemapBody; split <;> exact hf.answer _ _
  · exact h.takeCommand fun _ _ => Acts.ite (hf.answer _ _) (hf.answer _ _)
  · refine h.takeCommand fun _ _ => ?_
    unfold readHealthBody; split <;> exact hf.answer _ _
  · exact h.takeCommand fun _ _ => (hf.tail (.health _ _ fun _ => HealthSound.empty)).answer _ _
  · exact h.takeCommand fun ha _ => hf.retireSpanBody _ (by
      simp only [inOnline, beq_iff_eq] at ha; exact ha)
  · exact h.takeCommand fun _ _ => hf.cancelRetireBody _
  · exact h.takeCommand fun _ _ => Acts.ite (hf.answer _ _) (hf.answer _ _)
  · exact h.takeCommand fun _ _ => (hf.tail (.drop _ _)).answer _ _
  · exact h.takeCommand fun _ _ => hf.answer _ _
  · exact h.takeCommand fun _ _ => (hf.tail (.ack _ _)).answer _ _
  · exact h.takeCommand fun _ _ => Acts.answer _ _ (hf.setParams (ParamsSound.flags rfl rfl rfl rfl rfl rfl))
  · exact h.takeCommand fun _ _ => hf.sweepStartNow.answer _ _
  · exact h.takeCommand fun _ _ => hf.sweepStopNow.answer _ _
  · exact h.takeCommand fun _ _ => Acts.answer _ _ (Acts.setSweep rfl hf.sweepReposition)
  · refine h.takeCommand fun _ _ => ?_
    unfold readStatsBody; split <;> exact hf.answer _ _
  · exact h.takeCommand fun _ _ => (hf.setStats _).answer _ _
  · refine h.takeCommand fun _ _ => ?_
    unfold storeDetachBody; split
    · exact hf.answer _ _
    · exact hf.answer _ _
    · exact (hf.enqueueRequest _).settle
  · exact h.takeCommand fun _ _ =>
      Acts.ite (hf.answer _ _) (Acts.ite (hf.enqueueRequest _).settle (hf.answer _ _))
  · exact h.takeCommand fun _ _ => hf.rawShiftBody _
  · exact h.answer _ _

theorem Acts.takeTransaction (b : List Byte) (h : Acts s t) : Acts s (takeTransaction b t) :=
  Acts.ite h (Acts.ite h (Acts.ite (h.answer _ _) (Acts.ite (h.answer _ _) (Acts.ite (h.answer _ _)
    (h.runCode _ _)))))

theorem Acts.busWrite (a : BitVec 7) (b : List Byte) (h : Acts s t) : Acts s (busWrite a b t) :=
  Acts.ite (h.takeTransaction _) h

/-- Every command but a full reset is a chain of acts. -/
theorem acts_of_exec {c : Instr} (hc : ∀ h e a, c ≠ .fullReset h e a) (hx : exec c s = .next t) :
    Acts s t := by
  have r : Acts s s := .refl
  cases c <;> simp only [exec] at hx
  case fullReset h e a => exact absurd rfl (hc h e a)
  all_goals cases hx
  case hostResetAssert => exact Acts.ite r r.hostPathReset
  case hostResetRelease => exact r.setPins _
  case lineRead => exact r.takeRequest _ _ _
  case lineWrite => exact r.takeRequest _ _ _
  case arbiterGrant => exact r.arbitrate
  case holdDiversion => exact Acts.ite r.divertHead r
  case downstreamResponse => exact r.portResponse _ _ _
  case tagTimeout => exact r.portTimeout _
  case copyStart => exact Acts.ite r.considerStart.settle r
  case copyReadPresent => exact r.copyReadIfDue
  case abortEnd => exact Acts.ite r.abortEndIfDue.settle r
  case sweepIntervalExpiry =>
    split
    · rename_i hw; simp at hw; exact r.sweepExpire hw.1.2
    · exact r
  case sweepReadPresent => exact r.sweepReadIfDue
  case journalServeRequest => exact Acts.ite r.serveHead.settle r
  case pageProgramDone =>
    split
    · exact Acts.ite r.verified.settle (r.storeFault _ _ _).settle
    · exact r
  case programLimitExpiry =>
    split
    · exact (r.storeFault _ _ _).settle
    · exact r
  case sectorEraseDone =>
    split
    · exact r.erased.settle
    · exact r
  case eraseLimitExpiry =>
    split
    · exact (r.storeFault _ _ _).settle
    · exact r
  case journalReadDone => exact Acts.ite (Acts.foldl (fun _ b hu => hu.readPosition b) _ r).settle r
  case attachReadyExpiry => exact Acts.ite (r.storeFault _ _ _).settle r
  case storeReady => exact Acts.ite (r.setTask rfl) r
  case busyWriteRefused => exact r
  case unknownFrame => exact r.busWrite _ _
  case start => exact r.runCode 0x01 _
  case cleanStart => exact r.runCode 0x02 _
  case getParam => exact r.runCode 0x10 _
  case setParam => exact r.runCode 0x11 _
  case setGeometry => exact r.runCode 0x12 _
  case readRemap => exact r.runCode 0x20 _
  case findSpan => exact r.runCode 0x21 _
  case readHealth => exact r.runCode 0x22 _
  case clearHealth => exact r.runCode 0x23 _
  case retireSpan => exact r.runCode 0x30 _
  case cancelRetire => exact r.runCode 0x31 _
  case readEvents => exact r.runCode 0x40 _
  case dropEvents => exact r.runCode 0x41 _
  case readAlerts => exact r.runCode 0x42 _
  case ackAlerts => exact r.runCode 0x43 _
  case setAlertMask => exact r.runCode 0x44 _
  case sweepStart => exact r.runCode 0x50 _
  case sweepStop => exact r.runCode 0x51 _
  case sweepRestart => exact r.runCode 0x52 _
  case readStats => exact r.runCode 0x58 _
  case clearStats => exact r.runCode 0x59 _
  case storeDetach => exact r.runCode 0x60 _
  case storeAttach => exact r.runCode 0x61 _
  case rawShift => exact r.runCode 0x62 _
  case rawShiftDone =>
    split
    · exact Acts.ite (r.rawShifted _ _) r
    · exact r

end Sys2Proof.Machine
end

