-- ==== Sys2Proof/Laws/Settle.lean ====
section
/-! SUPPORT. Laws of what follows in a step: a state with nothing due is left as it is, and a state that has
been settled has nothing due. -/

namespace Sys2Proof.Machine

/-- With nothing to serve, serving does nothing (R131). -/
theorem serveWaiting_of_not_due {s : State} (h : serveDue s = false) : ∀ n, serveWaiting n s = s
  | 0 => rfl
  | n + 1 => by simp [serveWaiting, h]

/-- With no abort to end, none ends (R21). -/
theorem abortEndIfDue_of_not_due {s : State} (h : abortEndDue s = false) : abortEndIfDue s = s := by
  simp [abortEndIfDue, h]

/-- With no start due, considering one does nothing (R95, R96). -/
theorem considerStart_of_not_due {s : State} (h : startDue s = false) : considerStart s = s := by
  unfold considerStart
  split
  · rename_i hm
    split
    · rfl
    · rename_i q rest hq
      split
      · rename_i k e hk he
        simp [startDue, hm, hq, hk, he] at h
      · rename_i hno
        have hx : s.copy.exhausted = true := by
          cases hx : s.copy.exhausted
          · simp [startDue, hm, hq, hx] at h
          · rfl
        simp [spareExhausted, hx]
  · rfl

/-- With no READ due, the copy engine presents none (R98). -/
theorem copyReadIfDue_of_not_due {s : State} (h : copyReadDue s = false) : copyReadIfDue s = s := by
  simp [copyReadIfDue, h]

/-- With no READ due, the sweep presents none (R117). -/
theorem sweepReadIfDue_of_not_due {s : State} (h : sweepReadDue s = false) : sweepReadIfDue s = s := by
  simp [sweepReadIfDue, h]

/-- A settled state is left as it is. -/
theorem settle_of_settled {s : State} (h : settled s = true) : settle s = s := by
  simp only [settled, Bool.and_eq_true, Bool.not_eq_true'] at h
  obtain ⟨⟨⟨⟨h1, h2⟩, h3⟩, h4⟩, h5⟩ := h
  simp [settle, serveWaiting_of_not_due h1, abortEndIfDue_of_not_due h2, considerStart_of_not_due h3,
    copyReadIfDue_of_not_due h4, sweepReadIfDue_of_not_due h5]

/-! ### What serving does to the request list -/

theorem recheckHead_journal (s : State) : (recheckHead s).journal = s.journal := by
  unfold recheckHead; split
  · split
    · unfold divertHead; dsimp only; split <;> rfl
    · rfl
  · rfl

theorem removeHolder_journal (k : Holder) (s : State) : (removeHolder k s).journal = s.journal := by
  unfold removeHolder; split
  · rfl
  · dsimp only; split
    · rfl
    · split
      · rw [recheckHead_journal]; rfl
      · rw [recheckHead_journal]; rfl

/-- With records skipped, the copy engine's step after BEGIN asks for no record (R131). -/
theorem beginReported_journal {s : State} (h : recordSkipped s = true) :
    (beginReported s).journal = s.journal := by
  unfold beginReported; split
  · simp only [takeLine]; split <;> rfl
  · simp only [stepEnded, sendCancel]
    split
    · rw [removeHolder_journal]; rfl
    · have hk : recordSkipped (removeHolder .copy (s.setCopy { s.copy with
          stepInFlight := false, request := .absent, data := none, writeKind := none, retry := none })) = true := by
        unfold recordSkipped at h ⊢; rw [removeHolder_journal]; exact h
      rw [if_pos hk]; simp only [cancelReported, State.setCopy_journal]; rw [removeHolder_journal]; rfl
  · rfl

theorem assignReported_journal (w : Bool) (s : State) : (assignReported w s).journal = s.journal := by
  unfold assignReported; split <;> rfl

/-- A record reported skipped leaves the request list and adds nothing to it (R131). -/
theorem reportRecord_journal (r : JRecord) {s : State} (h : recordSkipped s = true) :
    (reportRecord r false s).journal = (dropRequest s).journal := by
  unfold reportRecord recordReported; split
  · exact beginReported_journal (s := dropRequest s) h
  · exact assignReported_journal _ _
  · rfl

/-- A request served is gone from the list, or the controller has work (R131). -/
theorem serveHead_cases {s : State} (h : serveDue s = true) :
    (serveHead s).journal.task ≠ .idle ∨ (serveHead s).journal.requests = s.journal.requests.tail := by
  unfold serveHead; split
  · simp [serveDue, *] at h
  · split
    · split
      · left; simp [setTask]
      · left; simp [beginCompact]
    · rename_i hno; right; rw [reportRecord_journal _ (by simp [recordSkipped, hno])]; rfl
  · split
    · left; simp [beginCompact]
    · right; rfl
  · left; simp [setTask]
  · right; split <;> rfl

/-- With enough rounds, serving leaves nothing to serve (R131). -/
theorem serveWaiting_done {n : Nat} {s : State} (h : s.journal.requests.length ≤ n) :
    serveDue (serveWaiting n s) = false := by
  induction n generalizing s with
  | zero => simp [serveWaiting, serveDue] at *; simp [h]
  | succ n ih =>
    unfold serveWaiting; split
    · rename_i hd
      rcases serveHead_cases hd with h1 | h1
      · have hn : serveDue (serveHead s) = false := by simp [serveDue, h1]
        rw [serveWaiting_of_not_due hn]; exact hn
      · apply ih; rw [h1]; simp; omega
    · rename_i hd; simpa using hd

/-! ### What ending an abort and considering a start leave -/

theorem withdrawHalves_journal (n : Nat) (s : State) : (withdrawHalves n s).journal = s.journal := by
  refine foldl_keeps (g := State.journal) (fun u a => ?_) _ _
  unfold withdrawHalf finishHalf answerWrite; split
  · split
    · split
      · rfl
      · dsimp only; split <;> rfl
    · rfl
  · rfl

theorem abortEndIfDue_journal (s : State) : (abortEndIfDue s).journal = s.journal := by
  unfold abortEndIfDue; split
  · split
    · simp [finishAbort, offer, withdrawHalves_journal]
    · rfl
  · rfl

/-- An abort that may end has ended (R21). -/
theorem abortEndIfDue_done (s : State) : abortEndDue (abortEndIfDue s) = false := by
  unfold abortEndIfDue; split
  · split
    · simp only [finishAbort, abortEndDue, State.setCopy_copy]; rfl
    · rename_i h _ hj; simp [abortEndDue, hj] at h
  · simp_all

/-- After a start is considered none is due, and a request then due is the BEGIN record of the copy just
started (R95, R96). -/
theorem considerStart_done {s : State} (h1 : serveDue s = false) (h2 : abortEndDue s = false) :
    startDue (considerStart s) = false ∧ abortEndDue (considerStart s) = false ∧
    (serveDue (considerStart s) = true → ∃ r,
      (considerStart s).journal.requests = [.record r] ∧ (considerStart s).journal.store = .online) := by
  unfold considerStart; split
  · rename_i hm; split
    · rename_i hr; exact ⟨by simp [startDue, hr], h2, by simp [h1]⟩
    · rename_i q rest hq
      split
      · rename_i k e hk he
        have hst : (startCopy q rest e k s).copy.state = .beginning ∨
            (startCopy q rest e k s).copy.state = .lineRead := by
          simp only [startCopy, sendBegin]; split
          · right; simp only [beginReported, offer]; simp [takeLine]; split <;> simp [addHolder]
          · left; rfl
        refine ⟨by rcases hst with h | h <;> simp [startDue, mayStart, h],
          by rcases hst with h | h <;> simp [abortEndDue, h], fun hd => ?_⟩
        simp only [startCopy, sendBegin] at hd ⊢
        split at hd
        · rename_i hs
          simp only [serveDue] at hd
          rw [beginReported_journal hs] at hd
          exact absurd (show serveDue s = true from hd) (by simp [h1])
        · rename_i hs
          rw [if_neg hs]
          simp [recordSkipped, offer] at hs
          have hi : s.journal.task = .idle := by
            simp only [serveDue, Bool.and_eq_true] at hd
            have := hd.1
            simp only [beq_iff_eq] at this
            exact this
          have hn : s.journal.requests = [] := by simpa [serveDue, hi] using h1
          exact ⟨_, by simp [enqueueRequest, offer, hn]; rfl, hs.1⟩
      · rename_i hno
        have hnone : ((freeSlot s.geom s.remap).isSome && (freeEntry s.remap).isSome) = false := by
          cases hk : freeSlot s.geom s.remap <;> cases he : freeEntry s.remap <;> simp
          exact absurd he (by intro he; exact hno _ _ hk he)
        unfold spareExhausted; split
        · rename_i hx
          exact ⟨by simp [startDue, hx, hnone], h2, by simp [h1]⟩
        · refine ⟨?_, ?_, fun hd => absurd (show serveDue s = true from hd) (by simp [h1])⟩
          · show (_ && (((freeSlot s.geom s.remap).isSome && (freeEntry s.remap).isSome) || _)) = false
            simp [hnone]
          · simp [mayStart] at hm
            simp [abortEndDue, offer, hm.1]
  · rename_i hm
    exact ⟨by simp [startDue, hm], h2, by simp [h1]⟩

/-! ### A settled state -/

/-- What follows in a step leaves nothing due. -/
theorem settle_settled (s : State) : settled (settle s) = true := by
  simp only [settle]
  have a1 : serveDue (serveWaiting (s.journal.requests.length + 1) s) = false :=
    serveWaiting_done (by omega)
  generalize serveWaiting (s.journal.requests.length + 1) s = s1 at a1 ⊢
  have a2 : serveDue (abortEndIfDue s1) = false := by unfold serveDue; rw [abortEndIfDue_journal]; exact a1
  have b2 := abortEndIfDue_done s1
  generalize abortEndIfDue s1 = s2 at a2 b2 ⊢
  obtain ⟨c1, c2, c3⟩ := considerStart_done a2 b2
  generalize considerStart s2 = s3 at c1 c2 c3 ⊢
  have d : serveDue (serveWaiting (s3.journal.requests.length + 1) s3) = false ∧
      abortEndDue (serveWaiting (s3.journal.requests.length + 1) s3) = false ∧
      startDue (serveWaiting (s3.journal.requests.length + 1) s3) = false := by
    refine ⟨serveWaiting_done (by omega), ?_⟩
    by_cases hd : serveDue s3 = true
    · obtain ⟨r, hr, hst⟩ := c3 hd
      have key : ∀ t : State, (∃ j, t = s3.setJournal j ∧ j.task ≠ .idle) → ∀ n,
          abortEndDue (serveWaiting n t) = false ∧ startDue (serveWaiting n t) = false := by
        rintro t ⟨j, rfl, hj⟩ k
        have hn : serveDue (s3.setJournal j) = false := by simp [serveDue, hj]
        rw [serveWaiting_of_not_due hn]
        exact ⟨c2, c1⟩
      unfold serveWaiting; rw [if_pos hd]
      apply key
      unfold serveHead; rw [hr]; simp only [hst, if_true]
      split <;> exact ⟨_, rfl, by simp⟩
    · rw [serveWaiting_of_not_due (by simpa using hd)]; exact ⟨c2, c1⟩
  generalize serveWaiting (s3.journal.requests.length + 1) s3 = s4 at d ⊢
  obtain ⟨d1, d2, d3⟩ := d
  have e : serveDue (copyReadIfDue s4) = false ∧ abortEndDue (copyReadIfDue s4) = false ∧
      startDue (copyReadIfDue s4) = false ∧ copyReadDue (copyReadIfDue s4) = false := by
    unfold copyReadIfDue; split
    · rename_i hc
      simp only [copyReadDue, Bool.and_eq_true, beq_iff_eq] at hc
      cases hl : sourceLine s4.copy with
      | none => simp [hl] at hc
      | some p =>
        simp only [presentCopy]
        refine ⟨d1, ?_, ?_, ?_⟩
        · simp [abortEndDue, hc.1.1]
        · simp [startDue, mayStart, hc.1.1]
        · simp [copyReadDue]
    · exact ⟨d1, d2, d3, by simp_all⟩
  generalize copyReadIfDue s4 = s5 at e ⊢
  obtain ⟨e1, e2, e3, e4⟩ := e
  unfold sweepReadIfDue; split
  · rename_i hc
    simp only [sweepReadDue, Bool.and_eq_true, beq_iff_eq] at hc
    cases hl : s5.sweep.line with
    | none => simp [hl] at hc
    | some p =>
      have hps : presentSweep .read .sweepRead s5 =
          s5.setSweep { s5.sweep with request := .presented ⟨⟨p, .read⟩, .sweepRead, false⟩ } := by
        simp only [presentSweep]; rw [hl]
      have x1 : abortEndDue (s5.setSweep { s5.sweep with
          request := .presented ⟨⟨p, .read⟩, .sweepRead, false⟩ }) = abortEndDue s5 := by
        unfold abortEndDue spanWriteInFlight
        simp [hc.1.2, BgRequest.presentedIssue]
      have x2 : sweepReadDue (s5.setSweep { s5.sweep with
          request := .presented ⟨⟨p, .read⟩, .sweepRead, false⟩ }) = false := by
        simp [sweepReadDue]
      rw [hps]; unfold settled
      rw [x1, x2, e2]
      change (!serveDue s5 && !false && !startDue s5 && !copyReadDue s5 && !false) = true
      simp [e1, e3, e4]
  · rename_i hc
    simp [settled, e1, e2, e3, e4, hc]

/-- A due request whose serving ends with nothing due is all that the step does. -/
theorem settle_of_serveHead {s t : State} (hd : serveDue s = true) (h : serveHead s = t)
    (ht : settled t = true) : settle s = t := by
  have hs := settle_of_settled ht
  simp only [settled, Bool.and_eq_true, Bool.not_eq_true'] at ht
  unfold settle at hs ⊢
  rw [serveWaiting_of_not_due ht.1.1.1.1] at hs
  have : serveWaiting (s.journal.requests.length + 1) s = t := by
    unfold serveWaiting; rw [if_pos hd, h, serveWaiting_of_not_due ht.1.1.1.1]
  rw [this]; exact hs

end Sys2Proof.Machine
end

