-- ==== Sys2Proof/Laws/Lookups.lean ====
section
/-! SUPPORT. Laws of the look-ups: the Remap Table by span and by slot, the Line Lock Set by holder, the host
records by line, the lowest FREE tag; and what the rows of the memory port come to. -/

namespace Sys2Proof.Machine

/-! ### The Remap Table -/

/-- A span has no entry exactly when no entry names it. -/
theorem findEntry_eq_none_iff {r : Remap} {n : Nat} :
    findEntry r n = none ↔ ∀ i : Fin 128, ∀ b ∈ r[i], b.span ≠ n := by
  unfold findEntry; rw [lowestIndex_eq_none_iff]
  refine forall_congr' fun i => ?_
  cases h : r[i] <;> simp

/-- A span has no binding exactly when no entry names it. -/
theorem bindingOf_eq_none_iff {r : Remap} {n : Nat} :
    bindingOf r n = none ↔ ∀ i : Fin 128, ∀ b ∈ r[i], b.span ≠ n := by
  rw [← findEntry_eq_none_iff]
  unfold bindingOf
  cases h : findEntry r n with
  | none => simp
  | some i =>
    have := ((lowestIndex_eq_some_iff _ _ _).1 h).1
    simp only [Option.bind_some]
    exact ⟨fun hh => by rw [hh] at this; simp at this, fun hh => by cases hh⟩

/-- The one entry that names a span gives its binding. -/
theorem bindingOf_eq_some {r : Remap} {n : Nat} {i : Fin 128} {b : Binding} (hb : r[i] = some b)
    (hn : b.span = n) (hu : ∀ j : Fin 128, ∀ c ∈ r[j], c.span = n → j = i) : bindingOf r n = some b := by
  have : findEntry r n = some i := by
    unfold findEntry; rw [lowestIndex_eq_some_iff]
    refine ⟨by rw [hb]; simp [hn], fun j hj => ?_⟩
    by_contra hc
    cases hr : r[j] with
    | none => simp [hr] at hc
    | some c =>
      simp [hr] at hc
      have := hu j c hr hc
      omega
  simp only [bindingOf, this, Option.bind_some, hb]

/-- A slot is free exactly when no entry names it (R26). -/
theorem bindingOfSlot_eq_none_iff {r : Remap} {n : Nat} :
    bindingOfSlot r n = none ↔ ∀ i : Fin 128, ∀ b ∈ r[i], b.slot ≠ n := by
  unfold bindingOfSlot
  cases h : lowestIndex (fun e => e.any (fun b => b.slot == n)) r with
  | none =>
    rw [lowestIndex_eq_none_iff] at h
    simp only [Option.bind_none, true_iff]
    intro i b hb hn
    have := h i
    have hb : r[i] = some b := hb
    rw [hb] at this; simp [hn] at this
  | some i =>
    have := ((lowestIndex_eq_some_iff _ _ _).1 h).1
    simp only [Option.bind_some]
    constructor
    · intro hh; rw [hh] at this; simp at this
    · intro hh
      cases hr : r[i] with
      | none => rfl
      | some c => rw [hr] at this; simp at this; exact absurd this (hh i c hr)

/-! ### The Line Lock Set -/

/-- A holder's line after a holder's line is set. -/
theorem Locks.setLine_lineOf (l : Locks) (h k : Holder) (v : Option PhysLine) :
    (l.setLine h v).lineOf k = if h = k then v else l.lineOf k := by
  cases h <;> cases k <;> simp [Locks.setLine, Locks.lineOf]
  simp [Vector.getElem_set, Fin.ext_iff]

/-- A line is locked exactly when some holder holds it (R53). -/
theorem Locks.locked_iff (l : Locks) (p : PhysLine) :
    l.locked p = true ↔ ∃ k, l.lineOf k = some p := by
  simp only [Locks.locked, Locks.holders, Bool.not_eq_true', List.isEmpty_eq_false_iff_exists_mem,
    List.mem_filter, beq_iff_eq]
  refine exists_congr fun k => ?_
  have : k ∈ allHolders := by
    cases k with
    | copy => decide
    | sweep => decide
    | ladder k => revert k; decide
  simp [this]

/-! ### Host records -/

/-- A record of a tag after some tags are given a place. -/
theorem placeAll_getElem {tags : List HostTag} {p : Place} {recs : Vector (Option HostRec) 32}
    (x : HostTag) : (placeAll tags p recs)[x] =
      if x ∈ tags then (recs[x]).map (fun q => { q with place := p }) else recs[x] := by
  induction tags generalizing recs with
  | nil => simp [placeAll]
  | cons t ts ih =>
    show (placeAll ts p (recs.set t _))[x] = _
    rw [ih]
    simp only [vector_set_getElem, List.mem_cons]
    by_cases h : t = x
    · subst h; simp
      cases recs[t.val] <;> simp
    · have : ¬ x = t := fun e => h e.symm
      simp [h, this]

/-- A tag's record is for a host line exactly when there is one that names it. -/
theorem HostPort.isFor_iff {h : HostPort} {line : HostLine} {t : HostTag} :
    h.isFor line.toNat t = true ↔ ∃ r ∈ h.recs[t], r.line = line := by
  unfold HostPort.isFor
  cases hr : h.recs[t] with
  | none => simp
  | some r => simpa using ⟨fun h => BitVec.eq_of_toNat_eq h, fun h => by rw [h]⟩

/-! ### The memory port -/

/-- The lowest FREE tag is found (R69). -/
theorem freeTag_of_lowest {p : Port} {d : PortTag} (h : p.LowestFree d) : freeTag p = some d := by
  unfold freeTag; rw [lowestIndex_eq_some_iff]
  exact ⟨by simp [h.1], fun j hj => by simpa using h.2 j hj⟩

/-- A grant, when a request is presented and a tag is FREE, is a grant on the lowest FREE tag (R74). -/
theorem arbitrate_of_presented {s : State} {d : PortTag} (hm : s.mode ≠ .startup) (hd : s.port.LowestFree d)
    (hp : fgPresented s = true ∨ bgPresented s = true) : arbitrate s = grantOn d s := by
  simp only [arbitrate, freeTag_of_lowest hd]
  have : (s.mode != .startup && (fgPresented s || bgPresented s)) = true := by
    rcases hp with h | h <;> simp [hm, h]
  rw [if_pos this]

/-- A response on an IN USE tag completes its request (R70). -/
theorem portResponse_of_inUse {s : State} {d : PortTag} {i : Issue} (c : Condition) (x : LineData)
    (h : s.port.tags[d] = .inUse i) :
    portResponse d c x s = settle (completeIssue i c x (setTag d .free s)) := by
  have h : s.port.tags[d] = .inUse i := h
  rw [portResponse, h]

end Sys2Proof.Machine
end

