-- ==== Sys2Proof/Laws/Frames.lean ====
section
/-! SUPPORT. Frames of the shared operations: what leaving a line and a health increment can change, that
leaving a line commutes with updates of other parts, and what settling comes to after a record request and
after a line is taken. -/

namespace Sys2Proof.Machine

/-! ### Leaving a line -/

/-- A diversion changes the host port, the Hold List and the statistics (R59). -/
theorem divertHead_frame (s : State) :
    ∃ H L T, divertHead s = { s with host := H, hold := L, stats := T } := by
  unfold divertHead; dsimp only; split <;> exact ⟨_, _, _, rfl⟩

/-- A waiting head checked again changes no more than a diversion does (R59). -/
theorem recheckHead_frame (s : State) :
    ∃ H L T, recheckHead s = { s with host := H, hold := L, stats := T } := by
  unfold recheckHead; split
  · split
    · exact divertHead_frame s
    · exact ⟨_, _, _, rfl⟩
  · exact ⟨s.host, s.hold, s.stats, rfl⟩

/-- A holder that leaves its line changes the host port, the locks, the Hold List and the statistics (R55,
R60). -/
theorem removeHolder_frame (k : Holder) (s : State) :
    ∃ H K L T, removeHolder k s = { s with host := H, locks := K, hold := L, stats := T } := by
  unfold removeHolder; split
  · exact ⟨s.host, s.locks, s.hold, s.stats, rfl⟩
  · dsimp only; split
    · exact ⟨s.host, _, s.hold, s.stats, rfl⟩
    · split
      · rename_i line _
        obtain ⟨H, L, T, h⟩ := recheckHead_frame (releaseLine line (s.setLocks (s.locks.setLine k none)))
        exact ⟨H, _, L, T, by rw [h]; rfl⟩
      · obtain ⟨H, L, T, h⟩ := recheckHead_frame (s.setLocks (s.locks.setLine k none))
        exact ⟨H, _, L, T, by rw [h]; rfl⟩

/-- Leaving a line commutes with an update of the copy engine. -/
theorem removeHolder_setCopy (k : Holder) (v : CopyCtx) (s : State) :
    removeHolder k (s.setCopy v) = (removeHolder k s).setCopy v := by
  have d : ∀ s : State, divertHead (s.setCopy v) = (divertHead s).setCopy v := by
    intro s; unfold divertHead
    have : divertedTags (s.setCopy v) = divertedTags s := rfl
    simp only [State.setCopy_hold, State.setCopy_host, this]
    by_cases h : s.hold.length + (divertedTags s).length ≤ 8
    · rw [if_pos h, if_pos h]; rfl
    · rw [if_neg h, if_neg h]; rfl
  have r : ∀ s : State, recheckHead (s.setCopy v) = (recheckHead s).setCopy v := by
    intro s; unfold recheckHead
    have : headLocked (s.setCopy v) = headLocked s := rfl
    simp only [this, d, State.setCopy_host]
    cases s.host.headWaits <;> cases headLocked s <;> rfl
  unfold removeHolder
  simp only [State.setCopy_locks]
  cases s.locks.lineOf k with
  | none => rfl
  | some p =>
    have e : (s.setCopy v).setLocks (s.locks.setLine k none) =
        (s.setLocks (s.locks.setLine k none)).setCopy v := rfl
    simp only [e, State.setCopy_locks]
    generalize s.setLocks (s.locks.setLine k none) = t
    have e : servedLine (t.setCopy v) p = servedLine t p := rfl
    simp only [e]
    cases t.locks.locked p with
    | true => rfl
    | false =>
      cases servedLine t p with
      | none => exact r t
      | some line => exact r (releaseLine line t)

/-- Leaving a line commutes with an update of the sweep. -/
theorem removeHolder_setSweep (k : Holder) (v : Sweep) (s : State) :
    removeHolder k (s.setSweep v) = (removeHolder k s).setSweep v := by
  have d : ∀ s : State, divertHead (s.setSweep v) = (divertHead s).setSweep v := by
    intro s; unfold divertHead
    have : divertedTags (s.setSweep v) = divertedTags s := rfl
    simp only [State.setSweep_hold, State.setSweep_host, this]
    by_cases h : s.hold.length + (divertedTags s).length ≤ 8
    · rw [if_pos h, if_pos h]; rfl
    · rw [if_neg h, if_neg h]; rfl
  have r : ∀ s : State, recheckHead (s.setSweep v) = (recheckHead s).setSweep v := by
    intro s; unfold recheckHead
    have : headLocked (s.setSweep v) = headLocked s := rfl
    simp only [this, d, State.setSweep_host]
    cases s.host.headWaits <;> cases headLocked s <;> rfl
  unfold removeHolder
  simp only [State.setSweep_locks]
  cases s.locks.lineOf k with
  | none => rfl
  | some p =>
    have e : (s.setSweep v).setLocks (s.locks.setLine k none) =
        (s.setLocks (s.locks.setLine k none)).setSweep v := rfl
    simp only [e, State.setSweep_locks]
    generalize s.setLocks (s.locks.setLine k none) = t
    have e : servedLine (t.setSweep v) p = servedLine t p := rfl
    simp only [e]
    cases t.locks.locked p with
    | true => rfl
    | false =>
      cases servedLine t p with
      | none => exact r t
      | some line => exact r (releaseLine line t)

/-- Leaving a line commutes with an update of the journal controller. -/
theorem removeHolder_setJournal (k : Holder) (v : Journal) (s : State) :
    removeHolder k (s.setJournal v) = (removeHolder k s).setJournal v := by
  have d : ∀ s : State, divertHead (s.setJournal v) = (divertHead s).setJournal v := by
    intro s; unfold divertHead
    have : divertedTags (s.setJournal v) = divertedTags s := rfl
    simp only [State.setJournal_hold, State.setJournal_host, this]
    by_cases h : s.hold.length + (divertedTags s).length ≤ 8
    · rw [if_pos h, if_pos h]; rfl
    · rw [if_neg h, if_neg h]; rfl
  have r : ∀ s : State, recheckHead (s.setJournal v) = (recheckHead s).setJournal v := by
    intro s; unfold recheckHead
    have : headLocked (s.setJournal v) = headLocked s := rfl
    simp only [this, d, State.setJournal_host]
    cases s.host.headWaits <;> cases headLocked s <;> rfl
  unfold removeHolder
  simp only [State.setJournal_locks]
  cases s.locks.lineOf k with
  | none => rfl
  | some p =>
    have e : (s.setJournal v).setLocks (s.locks.setLine k none) =
        (s.setLocks (s.locks.setLine k none)).setJournal v := rfl
    simp only [e, State.setJournal_locks]
    generalize s.setLocks (s.locks.setLine k none) = t
    have e : servedLine (t.setJournal v) p = servedLine t p := rfl
    simp only [e]
    cases t.locks.locked p with
    | true => rfl
    | false =>
      cases servedLine t p with
      | none => exact r t
      | some line => exact r (releaseLine line t)

/-- Leaving a line commutes with an update of the management link. -/
theorem removeHolder_setLink (k : Holder) (v : Link) (s : State) :
    removeHolder k (s.setLink v) = (removeHolder k s).setLink v := by
  have d : ∀ s : State, divertHead (s.setLink v) = (divertHead s).setLink v := by
    intro s; unfold divertHead
    have : divertedTags (s.setLink v) = divertedTags s := rfl
    simp only [State.setLink_hold, State.setLink_host, this]
    by_cases h : s.hold.length + (divertedTags s).length ≤ 8
    · rw [if_pos h, if_pos h]; rfl
    · rw [if_neg h, if_neg h]; rfl
  have r : ∀ s : State, recheckHead (s.setLink v) = (recheckHead s).setLink v := by
    intro s; unfold recheckHead
    have : headLocked (s.setLink v) = headLocked s := rfl
    simp only [this, d, State.setLink_host]
    cases s.host.headWaits <;> cases headLocked s <;> rfl
  unfold removeHolder
  simp only [State.setLink_locks]
  cases s.locks.lineOf k with
  | none => rfl
  | some p =>
    have e : (s.setLink v).setLocks (s.locks.setLine k none) =
        (s.setLocks (s.locks.setLine k none)).setLink v := rfl
    simp only [e, State.setLink_locks]
    generalize s.setLocks (s.locks.setLine k none) = t
    have e : servedLine (t.setLink v) p = servedLine t p := rfl
    simp only [e]
    cases t.locks.locked p with
    | true => rfl
    | false =>
      cases servedLine t p with
      | none => exact r t
      | some line => exact r (releaseLine line t)

/-! ### A health increment -/

/-- A health increment changes the Health Table, the Retirement Queue, the Event Queue and the table-full
flag (R79 to R85). -/
theorem healthIncrement_frame (span : Nat) (failed : Bool) (src : Source) (s : State) :
    ∃ H R E b, healthIncrement span failed src s = { s with
      health := H, retire := R, events := E, sweep := { s.sweep with tableFull := b } } := by
  unfold healthIncrement; split
  · unfold dropIncrement; split
    · exact ⟨s.health, s.retire, s.events, s.sweep.tableFull, rfl⟩
    · exact ⟨s.health, s.retire, _, _, rfl⟩
  · dsimp only
    unfold thresholdCheck reportOnce autoRequest takeSpan
    repeat' split
    all_goals exact ⟨_, _, _, s.sweep.tableFull, rfl⟩

/-! ### Free entries and slots -/

/-- The lowest FREE entry is found (R16). -/
theorem freeEntry_eq_some {r : Remap} {e : Fin 128} (h : r[e] = none)
    (hl : ∀ j : Fin 128, j < e → r[j] ≠ none) : freeEntry r = some e := by
  unfold freeEntry; rw [lowestIndex_eq_some_iff]
  exact ⟨by rw [h]; rfl, fun j hj => by have := hl j hj; cases h : r[j] <;> simp_all⟩

/-- The lowest free slot is found (R16, R26). -/
theorem freeSlot_eq_some {g : Geometry} {r : Remap} {k : Nat} (hk : k < g.spareCount)
    (hf : ∀ i : Fin 128, ∀ b ∈ r[i], b.slot ≠ k)
    (hl : ∀ l, l < k → ∃ i : Fin 128, ∃ b ∈ r[i], b.slot = l) : freeSlot g r = some k := by
  unfold freeSlot
  rw [List.find?_eq_some_iff_getElem]
  refine ⟨by simpa [bindingOfSlot_eq_none_iff] using hf, k, by simpa using hk, by simp, fun j hj => ?_⟩
  obtain ⟨i, b, hb, he⟩ := hl j hj
  cases hh : bindingOfSlot r j with
  | some c => simp [hh]
  | none => exact absurd he (bindingOfSlot_eq_none_iff.1 hh i b hb)

/-! ### What settling comes to -/

/-- A record that is taken, not skipped, is all that follows of its request (R131, R132). -/
theorem settle_enqueueRequest {t u : State} {r : JRecord} (h : t.journal.TakesRecords)
    (hu : u = { t with journal := t.journal.asked r }) (hs : settled u = true) :
    settle (enqueueRequest (.record r) t) = u := by
  by_cases hi : t.journal.task = .idle
  · obtain ⟨hr, hn⟩ := h.2.2 hi
    refine settle_of_serveHead (by simp [serveDue, enqueueRequest, hi]) ?_ hs
    unfold serveHead
    simp only [enqueueRequest, State.setJournal_journal, hr, List.nil_append, h.1, hn, if_true]
    rw [hu]; simp [Journal.asked, hi, hr, setTask, State.setJournal, h.1]
  · have : enqueueRequest (.record r) t = u := by
      rw [hu]; simp [enqueueRequest, Journal.asked, hi, State.setJournal]
    rw [this]; exact settle_of_settled hs

/-- The READ of a quiet line is presented (R98). -/
theorem copyReadIfDue_of_quiet {t : State} {j : CopyJob} (h1 : t.copy.state = .lineRead)
    (h2 : t.copy.request = .absent) (h3 : t.copy.job = some j)
    (h4 : hostWriteAt t ⟨j.span, t.copy.cursor⟩ = false)
    (h5 : t.locks.sweep ≠ some ⟨j.span, t.copy.cursor⟩) :
    copyReadIfDue t = t.setCopy { t.copy with
      request := .presented ⟨⟨⟨j.span, t.copy.cursor⟩, .read⟩, .copyRead, false⟩ } := by
  have : copyReadDue t = true := by
    unfold copyReadDue; simp [h1, h2, sourceLine, h3, copyQuiet, h4, h5]
  unfold copyReadIfDue; rw [if_pos this]; simp [presentCopy, sourceLine, h3]

/-- When a line is taken and is quiet, its READ presented is all that follows (R98). -/
theorem settle_of_quietLine {t u : State} {j : CopyJob} (h0 : serveDue t = false)
    (h1 : t.copy.state = .lineRead) (h2 : t.copy.request = .absent) (h3 : t.copy.job = some j)
    (h4 : hostWriteAt t ⟨j.span, t.copy.cursor⟩ = false)
    (h5 : t.locks.sweep ≠ some ⟨j.span, t.copy.cursor⟩)
    (hu : u = t.setCopy { t.copy with
      request := .presented ⟨⟨⟨j.span, t.copy.cursor⟩, .read⟩, .copyRead, false⟩ })
    (hs : settled u = true) : settle t = u := by
  have a1 : abortEndDue t = false := by simp [abortEndDue, h1]
  have a2 : startDue t = false := by simp [startDue, mayStart, h1]
  unfold settle
  simp only [serveWaiting_of_not_due h0, abortEndIfDue_of_not_due a1, considerStart_of_not_due a2]
  rw [copyReadIfDue_of_quiet h1 h2 h3 h4 h5, ← hu]
  apply sweepReadIfDue_of_not_due
  simp only [settled, Bool.and_eq_true, Bool.not_eq_true'] at hs; exact hs.2

/-! ### Tables and journals as their statements name them -/

/-- The half that `LiveHalf` names is the one chosen (R128). -/
theorem chooseLive_of_liveHalf {a b : List Byte} {live : Option (HalfId × Header)} (h : LiveHalf a b live) :
    chooseLive a b = live := by
  rcases h with ⟨rfl, h1, h2⟩ | ⟨h, rfl, h1, h2⟩ | ⟨h, rfl, h1, h2⟩
  · simp [chooseLive, h1, h2]
  · unfold chooseLive; rw [h1]
    cases hb : validHeader b with
    | none => rfl
    | some g => have := h2 g hb; simp; omega
  · unfold chooseLive; rw [h1]
    cases ha : validHeader a with
    | none => rfl
    | some g => have := h2 g ha; simp [this]

/-- The bindings of a table are those of its entries. -/
theorem mem_bindings_iff {r : Remap} {b : Binding} :
    b ∈ r.toList.filterMap id ↔ ∃ i : Fin 128, r[i] = some b := by
  rw [List.mem_filterMap]
  simp only [id, Vector.mem_toList_iff, Vector.mem_iff_getElem]
  constructor
  · rintro ⟨x, ⟨i, hi, h⟩, rfl⟩; exact ⟨⟨i, hi⟩, h⟩
  · rintro ⟨i, h⟩; exact ⟨some b, ⟨i.val, i.isLt, h⟩, rfl⟩

end Sys2Proof.Machine
end

