-- ==== Sys2Proof/Tests/Slice0.lean ====
section
/-! SUPPORT. The tests: the smoke test of WellFormed, a few steps of the manual's worked examples, and for
each statement with hypotheses a concrete state and operands that meet them together. Expected values are the
manual's; the section is named at each test. -/

namespace Sys2Proof.Tests

open Sys2Proof.Machine

set_option Elab.async false

/-! ### Small states -/

/-- The geometry of section 1.7. -/
def geo : Geometry := { memSize := 262144, spareBase := 262016, spareCount := 128 }

/-- A bridge ONLINE with its store ONLINE, half B live at epoch 2 (the end of Table 12-1). -/
def up : State :=
  { State.fresh false true 0 with
    mode := .online
    geom := geo
    journal := { freshJournal true with task := .idle, store := .online, live := some .b, epoch := 2 }
    sweep := { freshSweep with timer := some 64 } }

/-- The same with the store OFFLINE. -/
def offline : State := { up with journal := { up.journal with store := .offline } }

/-- The same in FENCED, with the sweep STOPPED. -/
def fenced : State :=
  { up with mode := .fenced, sweep := { freshSweep with state := .stopped } }

/-- A busy link. -/
def busy : State := { up with link := waiting }

/-- A bridge in HOLD with its store OFFLINE: the state after reset. -/
def held : State := State.reset

/-- A bridge with one journal task. -/
def doing (t : Task) : State := { up with journal := { up.journal with task := t } }

/-- An entry of span 15,625 in slot 0. -/
def entry (stage : Stage) (copied : Nat) : Binding := ⟨stage, 15625, 0, copied, .auto, false, 0⟩

/-- Entry 0 bound and the copy engine in a state at a cursor. -/
def copying (b : Binding) (st : CopyState) (cursor : Nat) : State :=
  { up with
    remap := up.remap.set 0 (some b)
    copy := { idleCopy false with state := st, job := some ⟨0, b.span, b.slot⟩, cursor := cursor } }

/-- Entry 0 ACTIVE, journaled. -/
def active : State := { up with remap := up.remap.set 0 (some { entry .active 64 with journaled := true }) }

/-- Host line 1,000,000 + o: offset o of span 15,625. -/
def line (o : Nat) : HostLine := BitVec.ofNat 28 (1000000 + o)

/-- A read, and a full write, of the tag for offset 3, queued. -/
def readRec : HostRec := ⟨.read, line 3, .queued, none, none, none, 0⟩
def writeRec : HostRec := ⟨.write zeroLine fullMask, line 3, .queued, none, none, none, 0⟩

/-- Tag 4 outstanding with a record. -/
def outstanding (r : HostRec) (s : State) : State :=
  { s with host := { s.host with recs := s.host.recs.set 4 (some r) } }

/-- Tag 4 outstanding with a record, its request item at the head. -/
def queued (r : HostRec) (s : State) : State :=
  { outstanding r s with host := { (outstanding r s).host with requests := [4] } }

/-- Downstream tag 0 IN USE. -/
def atMemory (i : Issue) (s : State) : State :=
  { s with port := { s.port with tags := s.port.tags.set 0 (.inUse i) } }

/-- The full copy lock on a line. -/
def lockCopy (p : PhysLine) (s : State) : State := { s with locks := { s.locks with copy := some p } }

/-- A command goes from one state to another. -/
def goes (c : Instr) (s t : State) : Bool :=
  match exec c s with
  | .next u => decide (u = t)
  | .fault _ | .refused _ => false

/-- The state a command goes to. -/
def after (c : Instr) (s : State) : State :=
  match exec c s with
  | .next u => u
  | .fault _ | .refused _ => s

/-- A command goes to some state. -/
def answers (c : Instr) (s : State) : Bool :=
  match exec c s with
  | .next _ => true
  | .fault _ | .refused _ => false

/-- A command goes to a state in which nothing is left due. -/
def lands (c : Instr) (s u : State) : Bool := settled u && goes c s u

/-! ### WellFormed -/

theorem test_wf_params : (Instr.getParam (List.replicate 25 0)).wf = false ∧
    (Instr.getParam (List.replicate 24 0)).wf = true := by decide
theorem test_wf_readBack : (Instr.pageProgramDone (List.replicate 15 0)).wf = false ∧
    (Instr.pageProgramDone (List.replicate 16 0)).wf = true := by decide
theorem test_wf_positions : (Instr.journalReadDone []).wf = false ∧
    (Instr.journalReadDone [[0xFF]]).wf = false := by decide
theorem test_wf_busyWrite : (Instr.busyWriteRefused []).wf = false ∧
    (Instr.busyWriteRefused [0x02]).wf = true := by decide
theorem test_wf_unknownFrame : (Instr.unknownFrame []).wf = false ∧
    (Instr.unknownFrame [0x02, 0x00, 0xFE]).wf = false ∧
    (Instr.unknownFrame [0x02, 0x00, 0xFF]).wf = true := by decide
theorem test_wf_sampled : (Instr.rawShiftDone []).wf = false ∧
    (Instr.rawShiftDone (List.replicate 17 0)).wf = false ∧
    (Instr.rawShiftDone (List.replicate 16 0)).wf = true := by decide

/-! ### No word of the table is a command -/

theorem test_decode_none : decodeTableWord 16 0x1234 = none := by decide
theorem test_withFetchWord : (State.reset.withFetchWord 16 0x1234).pending = [] := by decide

/-! ### Steps of the worked examples -/

/-- Table 12-1 step 1: HOLD WAITING alone, status 80h. -/
theorem test_reset_status : statusByte State.reset = 0x80 ∧ linkAddress State.reset = 0x2A := by
  decide +kernel
/-- Table 12-1 step 2: no request is taken in STARTUP. -/
theorem test_startup_takes_nothing : goes (.lineRead 0 0) State.reset State.reset = true := by decide +kernel
/-- Table 12-1 step 3: CLEAN_START leaves BUSY alone set. -/
theorem test_cleanStart_status : statusByte (after (.cleanStart []) State.reset) = 0x01 := by decide +kernel
/-- Table 12-1 step 5: the new header makes the bridge ONLINE with status 52h. -/
theorem test_cleanHeader_status :
    statusByte (after (.pageProgramDone (headerBytes ⟨1, defaultGeometry⟩))
      { State.reset with
        journal := { State.reset.journal with task := .cleanHeader }, link := waiting }) = 0x52 := by
  decide +kernel
/-- Table 12-1 step 6: the frame's bytes, its geometry and the status. -/
theorem test_setGeometry_frame :
    frameOf 0x12 [0x00, 0x00, 0x04, 0x80, 0xFF, 0x03, 0x80]
      = [0x12, 0x07, 0x00, 0x00, 0x04, 0x80, 0xFF, 0x03, 0x80, 0xE1] ∧
    statusByte (after (.setGeometry [0x00, 0x00, 0x04, 0x80, 0xFF, 0x03, 0x80]) up) = 0x51 ∧
    (after (.setGeometry [0x00, 0x00, 0x04, 0x80, 0xFF, 0x03, 0x80]) { up with geom := defaultGeometry }).geom
      = geo := by
  decide +kernel
/-- Table 1-3 rows 3 to 6: the last line below the pool is taken, the pool and what lies beyond refused. -/
theorem test_range_and_pool :
    (after (.lineRead 0 16769023) up).host.requests = [0] ∧
    (after (.lineRead 0 16769024) up).host.sent = [.readData 0 .refused zeroLine false] ∧
    (after (.lineRead 0 16777216) up).host.sent = [.readData 0 .refused zeroLine false] := by
  decide +kernel
/-- Table 2-7: copied 20; offset 19 writes to both places, offset 21 to the source. -/
theorem test_resolution_during_copy :
    let r : Remap := (up.remap.set 0 (some ⟨.copying, 15625, 5, 20, .auto, false, 0⟩))
    resolve geo r true (line 19) = ⟨⟨15625, 19⟩, some ⟨262021, 19⟩⟩ ∧
    resolve geo r true (line 21) = ⟨⟨15625, 21⟩, none⟩ ∧
    resolve geo r false (line 3) = ⟨⟨15625, 3⟩, none⟩ ∧ lineNumber ⟨262021, 3⟩ = 16769347 := by
  decide +kernel
/-- Table 12-2 step 12: a read of offset 10 of the ACTIVE span goes to line 16,769,034. -/
theorem test_active_read :
    (after .arbiterGrant (queued { readRec with line := line 10 } active)).port.tags[0]
      = .inUse ⟨⟨⟨262016, 10⟩, .read⟩, .hostRead 4 0, false⟩ ∧ lineNumber ⟨262016, 10⟩ = 16769034 := by
  decide +kernel
/-- Table 3-6 step 3: a FAILED read takes ladder 0 with its lock and a retry. -/
theorem test_ladder_starts :
    let s := after (.downstreamResponse 0 .failed zeroLine)
      (outstanding readRec (atMemory ⟨⟨⟨15625, 3⟩, .read⟩, .hostRead 4 0, false⟩ up))
    s.host.ladders[0] = some ⟨4, ⟨15625, 3⟩, 0, 2⟩ ∧ s.locks.holders ⟨15625, 3⟩ = [.ladder 0] ∧
    s.host.followOns = [⟨⟨⟨15625, 3⟩, .read⟩, .ladderRetry 0 4 0, false⟩] := by
  decide +kernel
/-- Table 5-6 step 3: a timeout quarantines tag 0 and offers TAG_QUARANTINED, then MEMORY_ERROR value 2. -/
theorem test_timeout :
    let s := after (.tagTimeout 0)
      (outstanding writeRec (atMemory ⟨⟨⟨15625, 3⟩, .write zeroLine fullMask false⟩,
        .hostWrite 4 .source 0, false⟩ up))
    s.port.tags[0] = .quarantined ∧
    s.events.records.map (fun r => (r.event.kind, r.event.value))
      = [(.tagQuarantined, some 0), (.memoryError, some 2)] := by
  decide +kernel
/-- Table 12-5 steps 3 and 4: the second ERROR fences; the host read is answered POISONED with CONTAIN. -/
theorem test_fence :
    let s := after (.downstreamResponse 0 .error zeroLine)
      (outstanding readRec (atMemory ⟨⟨⟨262016, 3⟩, .read⟩, .hostRead 4 0, true⟩ up))
    s.mode = .fenced ∧ s.host.sent = [.readData 4 .poisoned zeroLine true] ∧
    s.events.records.map (fun r => (r.event.kind, r.event.value))
      = [(.memoryError, some 3), (.fenced, none)] ∧ s.sweep.state = .stopped := by
  decide +kernel
/-- Table 12-2 steps 1 and 2: the sixteenth fixed read queues the span and starts its copy in one step. -/
theorem test_auto_retirement :
    let s := after (.downstreamResponse 0 .fixed zeroLine)
      (outstanding readRec (atMemory ⟨⟨⟨15625, 3⟩, .read⟩, .hostRead 4 0, false⟩
        { up with health := up.health.set 0 (some ⟨15625, false, 15, 0, 0, 0, false⟩) }))
    s.events.records.map (fun r => (r.event.kind, r.event.value))
      = [(.retireQueued, some 1), (.retireStarted, some 0)] ∧
    s.remap[0] = some (entry .copying 0) ∧ s.copy.state = .beginning ∧ s.journal.task = .append := by
  decide +kernel
/-- Table 12-3 step 1: a copy with its slot write at memory goes on as the step in flight. -/
theorem test_cancel :
    let s := after (.cancelRetire [0x09, 0x3D, 0x00])
      { copying (entry .copying 20) .lineWrite 20 with
        copy := { (copying (entry .copying 20) .lineWrite 20).copy with request := .atMemory } }
    s.remap[0] = some (entry .aborting 20) ∧ s.copy.stepInFlight = true ∧
    s.link.response = some ⟨.ok, []⟩ := by
  decide +kernel
/-- Table 8-4 step 8: pass 7 ends; the new pass runs at half the interval. -/
theorem test_pass_end :
    let s := passEnd { up with
      params := { up.params with accelThreshold := 100 }
      sweep := { up.sweep with pass := 7, stats := { zeroPassStats with fixed := 120, failed := 2, skipped := 64 } } }
    s.sweep.pass = 8 ∧ s.sweep.interval = 32 ∧ s.sweep.accelerated = true ∧ s.sweep.position = 0 ∧
    s.events.records.map (fun r => (r.event.span, r.event.slot, r.event.value, r.pass))
      = [(some 64, some 2, some 120, 7)] := by
  decide +kernel
/-- Table 10-5 step 6: with one place free and two events lost, LOST is stored and the new event is lost. -/
theorem test_lost_report :
    let q := offerEvent 12 (spanEvent .retireQueued .link 15625 none (some 1))
      { records := List.replicate 31 ⟨0, lostEvent 1, 0⟩, seq := 132, lost := 2, flags := 0x80 }
    q.records.drop 31 = [⟨132, lostEvent 2, 12⟩] ∧ q.seq = 133 ∧ q.lost = 1 ∧ q.flags = 0x84 := by
  decide +kernel
/-- Table 6-5 step 4: the victim is the lowest fixed count. -/
theorem test_victim :
    victim 41 (Vector.ofFn (fun i : Fin 64 => some ⟨i.val, false, if i = 12 then 1 else 2, 0, 0, 31, false⟩))
      = some 12 := by
  decide +kernel
/-- Table 12-4 steps 4 and 7: an ASSIGN is restored ACTIVE; the BEGIN left open is queued and its copy
starts. -/
theorem test_replay :
    let s := after (.journalReadDone [recordBytes 1 ⟨.assignRec, 15625, 0, 0⟩, recordBytes 2 ⟨.beginRec, 40, 1, 0⟩,
        List.replicate 16 0xFF])
      { up with
        mode := .startup
        journal := { up.journal with task := .replayRecords 1 [], store := .offline } }
    s.remap[0] = some ⟨.active, 15625, 0, 64, .restored, true, 0⟩ ∧
    s.remap[1] = some ⟨.copying, 40, 1, 0, .resumed, false, 0⟩ ∧ s.mode = .online ∧
    s.journal.store = .online ∧ s.journal.next = 3 := by
  decide +kernel
/-- Table 9-1: the bytes driven for an erase of half B and a program at its position 1. -/
theorem test_driven_bytes :
    eraseDrive .b = [[0x06], [0x20, 0x00, 0x10, 0x00], [0x05]] ∧
    (programDrive .b 1 []) = [[0x06], [0x02, 0x00, 0x10, 0x10], [0x05]] := by
  decide +kernel

/-! ### States that meet the hypotheses of the statements -/

theorem witness_StepRunsFrontCommand :
    ({ up with pending := [.arbiterGrant, .start []] } : State).pending = [.arbiterGrant, .start []] ∧
    up.pending = [] := by decide

/-- A full queue with a lost event, and an empty one. -/
def fullEvents : Events :=
  { records := (List.range 32).map (fun k => ⟨BitVec.ofNat 16 (100 + k), lostEvent 1, 0⟩), seq := 132,
    lost := 255, flags := 0 }

theorem fullEvents_sound : fullEvents.Sound := by
  refine ⟨by decide, by decide, fun i h => ?_⟩
  have h : i < 32 := by simpa [fullEvents] using h
  interval_cases i <;> rfl

theorem witness_EventQueueStaysConsecutive :
    fullEvents.Sound ∧ ∃ t, step { up with events := fullEvents, pending := [.hostResetAssert] } = .next t :=
  ⟨fullEvents_sound, _, rfl⟩

theorem up_limits : WithinLimits up :=
  ⟨by decide, by decide, by decide, ⟨by decide +kernel, by intro i j e he; simp [up, State.fresh] at he⟩,
    ⟨by decide, by decide, by decide, by decide, by decide, by decide⟩, by decide +kernel,
    ⟨by decide, by decide +kernel⟩⟩

theorem witness_LimitsAreKept :
    WithinLimits up ∧ ∃ t, step { up with pending := [.hostResetAssert] } = .next t :=
  ⟨up_limits, _, rfl⟩

/-- An ACTIVE entry, a copy under way with its READ at memory, and a queued span. -/
def bound : State :=
  { copying (entry .copying 20) .lineRead 20 with
    copy := { (copying (entry .copying 20) .lineRead 20).copy with request := .atMemory }
    remap := (copying (entry .copying 20) .lineRead 20).remap.set 5 (some ⟨.active, 40, 127, 64, .command, true, 0⟩)
    retire := [⟨300, .auto⟩] }

theorem bound_remap (i : Fin 128) (b : Binding) (h : b ∈ bound.remap[i]) :
    i = 0 ∧ b = entry .copying 20 ∨ i = 5 ∧ b = ⟨.active, 40, 127, 64, .command, true, 0⟩ := by
  revert i b; decide +kernel

theorem bound_once : BoundOnce bound := by
  refine ⟨?_, ?_, ?_, by decide, by decide, ?_, ?_, by decide, by decide, by decide⟩
  · intro i j b hb c hc h
    obtain ⟨rfl, rfl⟩ | ⟨rfl, rfl⟩ := bound_remap i b hb <;>
      obtain ⟨rfl, rfl⟩ | ⟨rfl, rfl⟩ := bound_remap j c hc <;> revert h <;> decide
  all_goals decide +kernel

theorem witness_BindingsStayUnique :
    BoundOnce bound ∧ ∃ t, step { bound with pending := [.cancelRetire [0x09, 0x3D, 0x00]] } = .next t :=
  ⟨bound_once, _, rfl⟩

theorem witness_NothingIsLeftDue :
    settled up = true ∧ sweepLockSound up = true ∧
    ∃ t, step { up with pending := [.sweepIntervalExpiry] } = .next t := ⟨by decide +kernel, by decide, _, rfl⟩

theorem witness_FencedUntilFullReset : fenced.mode = .fenced ∧ answers (.getParam [1]) fenced = true := by
  decide +kernel

theorem witness_ActiveBindingsStay :
    active.remap[0] = some { entry .active 64 with journaled := true } ∧ answers (.storeDetach []) active = true := by
  decide +kernel

theorem witness_ContainMarksFollowTheFence :
    (after (.lineRead 0 16777216) fenced).host.sent = [.readData 0 .refused zeroLine true] ∧
    (after (.lineRead 0 16777216) up).host.sent = [.readData 0 .refused zeroLine false] ∧
    fenced.mode = .fenced ∧ (after (.lineRead 0 16777216) up).mode ≠ .fenced := by decide +kernel

/-- The part's own address with the straps at 0 and at 3, BUSY or not; another address; and a full reset. -/
theorem witness_ReadTransactionsGiveTheResponse :
    ((0x2A : BitVec 7).toNat = 0x2A + up.pins.addr.toNat ∧ busAcks 0x2A (List.replicate 28 0) up = (true, 27) ∧
      busAcks 0x2A [0x10] busy = (true, 0)) ∧
    ((0x2D : BitVec 7).toNat = 0x2A + (State.fresh true true 3).pins.addr.toNat ∧
      busAcks 0x2D [0x10] (State.fresh true true 3) = (true, 1)) ∧
    ((0x2B : BitVec 7).toNat ≠ 0x2A + up.pins.addr.toNat ∧ busAcks 0x2B [0x10] up = (false, 0)) ∧
    answers (.fullReset true true 3) up = true := by decide +kernel

theorem witness_FramesNameTheirCommands : ((0x62, .rawShift) : Byte × (List Byte → Instr)) ∈ linkCommands := by
  simp [linkCommands]

/-- An empty transaction; two bytes; N of 25; a byte too few; a wrong check byte; an unknown code. -/
theorem witness_BadFramesAreAnswered :
    up.link.busy = false ∧ ([0x10, 0x00] : List Byte).length < 3 ∧
    24 < (([0x10, 25, 0] : List Byte).getD 1 0).toNat ∧
    ([0x10, 1, 1] : List Byte).length ≠ (([0x10, 1, 1] : List Byte).getD 1 0).toNat + 3 ∧
    ([0x10, 0, 0] : List Byte).length = (([0x10, 0, 0] : List Byte).getD 1 0).toNat + 3 ∧
    byteSum [0x10, 0, 0] ≠ 0 ∧
    byteSum [0xFF, 0, 1] = 0 ∧ (([0xFF, 0, 1] : List Byte).getD 0 0) ∉ linkCommands.map Prod.fst := by
  decide +kernel

theorem witness_BusyLinkRefusesWrites : busy.link.busy = true := by decide

/-- START outside HOLD, RETIRE_SPAN in STARTUP and in FENCED, and a wrong length in HOLD and ONLINE. -/
theorem witness_RefusedCommandsChangeNothing :
    (0x01 ∈ holdCodes ∧ up.journal.task ≠ .hold ∧ up.link.busy = false) ∧
    (0x30 ∉ holdCodes ++ anyModeCodes ∧ held.mode = .startup ∧ held.link.busy = false) ∧
    (0x30 ∈ onlineCodes ∧ fenced.mode = .fenced ∧ fenced.link.busy = false) ∧
    (0x01 ∈ holdCodes ∧ held.journal.task = .hold ∧ 1 ∉ lengthsOf 0x01) ∧
    (0x62 ∉ holdCodes ∧ up.mode = .online ∧ 18 ∉ lengthsOf 0x62 ∧ 0 ∉ lengthsOf 0x62) := by
  decide +kernel

/-- A wrong length for an all-mode code in STARTUP and in FENCED, and for the other codes in FENCED. -/
theorem witness_RefusedCommandsChangeNothing_lengths :
    (0x10 ∈ anyModeCodes ∧ 0x10 ∉ holdCodes ∧ 0x10 ∉ onlineCodes ∧ 0 ∉ lengthsOf 0x10 ∧
      held.mode = .startup ∧ fenced.mode = .fenced) ∧
    (0x23 ∉ holdCodes ++ anyModeCodes ∧ 0x23 ∉ onlineCodes ∧ 1 ∉ lengthsOf 0x23 ∧ fenced.mode ≠ .startup) ∧
    goes (.getParam []) held { held with link := replied .badParam [] } = true ∧
    goes (.clearHealth [0]) fenced { fenced with link := replied .badParam [] } = true := by decide +kernel

theorem witness_TableReadsAnswer :
    up.link.busy = false ∧ up.mode ≠ .startup ∧ 128 ≤ (128 : Byte).toNat ∧ 64 ≤ (64 : Byte).toNat ∧
    4194303 ≤ 4194303 ∧ 4194303 < 4194304 ∧ 4194304 < 16777216 := by decide

theorem witness_ParamAndStatsReadsAnswer :
    up.link.busy = false ∧ up.mode ≠ .startup ∧ paramValue up.params (0x0B : Byte).toNat = some 0 ∧
    11 < (12 : Byte).toNat ∧ (12 : Byte) ≠ 0x20 ∧ 1 < (2 : Byte).toNat := by decide

/-- A count of each length, and queues that are full, nearly full and empty with no loss. -/
theorem witness_EventsAreRead : up.link.busy = false ∧ ((2 : Byte) = 1 ∨ (2 : Byte) = 2) ∧
    (0 : Byte) ≠ 1 ∧ (0 : Byte) ≠ 2 ∧ (3 : Byte) ≠ 1 ∧ (3 : Byte) ≠ 2 := by decide

theorem witness_EventsAreDropped :
    ({ up with events := fullEvents } : State).link.busy = false ∧ 0 < (255 : Byte).toNat ∧
    fullEvents.records.length ≤ 32 ∧ 0 < fullEvents.records.length ∧ fullEvents.records.length = 32 ∧
    (fullEvents.records.drop 1).length < 32 ∧ up.events.lost = 0 := by decide +kernel

theorem witness_AlertsAreReadAndAcknowledged :
    up.link.busy = false ∧ (0x20 : Byte).getLsbD (categoryBit .hostReset) = true := by decide

theorem witness_OfferedEventsAreStoredOrLost :
    (up.events.records.length < 32 ∧ up.events.lost = 0) ∧ 32 ≤ fullEvents.records.length ∧
    ((fullEvents.records.drop 2).length < 31 ∧ (fullEvents.records.drop 1).length = 31 ∧
      0 < fullEvents.lost) := by decide +kernel

/-- The flag of a category the event has not: with room, at 31 records with no loss, and full with a loss. -/
theorem witness_OfferedEventsAreStoredOrLost_flags :
    (4 ≠ categoryBit .hostReset ∧ 4 ≠ 7 ∧ up.events.records.length < 31) ∧
    (7 ≠ categoryBit .hostReset ∧ ({ fullEvents with records := fullEvents.records.drop 1, lost := 0 } : Events).records.length = 31) ∧
    (32 ≤ fullEvents.records.length ∧ 0 < fullEvents.lost) := by decide +kernel

theorem witness_ParametersAreSet :
    up.link.busy = false ∧ up.mode ≠ .startup ∧ paramInRange (0 : Byte).toNat 1 = false ∧
    paramInRange (9 : Byte).toNat 17 = false := by decide

theorem witness_HealthAndStatsAreCleared : up.link.busy = false ∧ up.mode ≠ .startup := by decide

/-- A sweep STOPPED, WAITING and with a line in progress; in ONLINE and in FENCED; and each kind of pool. -/
theorem witness_SweepCommandsActByState :
    (fenced.sweep.state = .stopped ∧ fenced.mode = .fenced ∧ fenced.link.busy = false) ∧
    (up.sweep.state = .waiting ∧ up.mode = .online ∧ up.link.busy = false ∧ up.geom.valid = true) ∧
    lineInProgress { up.sweep with state := .writingBack } = true ∧
    up.geom.inPool 0 = false ∧
    (Geometry.valid ⟨10, 0, 9⟩ = true ∧ Geometry.inPool ⟨10, 0, 9⟩ 0 = true) ∧
    Geometry.valid ⟨10, 0, 10⟩ = true := by decide +kernel

/-- RETIRE_SPAN of span 300 taken, with a copy already under way. -/
theorem witness_RetireSpanIsDecided :
    bound.link.busy = false ∧ bound.mode = .online ∧
    (4194303 < 4194304 ∧ bound.geom.usable 262016 = false ∧ bound.geom.usable 262144 = false) ∧
    (bound.geom.usable 300 = true ∧ (∃ q ∈ bound.retire, q.span = 300)) ∧
    (bound.geom.usable 262015 = true ∧ (∀ q ∈ bound.retire, q.span ≠ 262015) ∧
      (∀ i : Fin 128, ∀ b ∈ bound.remap[i], b.span ≠ 262015) ∧ bound.retire.length < 8) ∧
    (let u : State := { offer (spanEvent .retireQueued .link 262015 none (some 2)) bound with
        retire := bound.retire ++ [⟨262015, .command⟩], link := replied .ok [] };
      settled u = true ∧ goes (.retireSpan (leBytes 3 262015)) bound u = true) ∧
    8 ≤ (List.replicate 8 (⟨300, .auto⟩ : Queued)).length := by decide +kernel

/-- A queued span, an unknown one, and one in each state of its entry. -/
theorem witness_CancelRetireByPlace :
    bound.link.busy = false ∧ bound.mode ≠ .startup ∧ (∃ q ∈ bound.retire, q.span = 300) ∧
    ((∀ q ∈ bound.retire, q.span ≠ 77) ∧ ∀ i : Fin 128, ∀ b ∈ bound.remap[i], b.span ≠ 77) ∧
    (bound.remap[5] = some ⟨.active, 40, 127, 64, .command, true, 0⟩ ∧ ∀ q ∈ bound.retire, q.span ≠ 40) ∧
    (∀ q ∈ bound.retire, q.span ≠ 15625) ∧
    (let u : State := { bound with
        remap := bound.remap.set 0 (some { entry .copying 20 with stage := .aborting })
        copy := { bound.copy with state := .aborting, cause := some .command, stepInFlight := true }
        link := replied .ok [] };
      settled u = true ∧ goes (.cancelRetire (leBytes 3 15625)) bound u = true) := by decide +kernel

/-- A copy in BEGINNING; and a copy that waits for a quiet line with the store ONLINE and not, a slot half of
the span's pool line being at memory. -/
theorem witness_CancelRetireByPlace_early :
    (let s := doing .append;
      let b : State := { copying (entry .copying 0) .beginning 0 with journal := s.journal };
      b.copy.state = .beginning ∧
      lands (.cancelRetire (leBytes 3 15625)) b { b with
        remap := b.remap.set 0 (some (entry .aborting 0))
        copy := { b.copy with
          state := .aborting, writeKind := none, cause := some .command, stepInFlight := true }
        link := replied .ok [] } = true) ∧
    (let s := copying (entry .copying 20) .lineRead 20;
      let left : State := removeHolder .copy { s with
        remap := s.remap.set 0 (some (entry .aborting 20))
        copy := { s.copy with
          state := .aborting, data := none, writeKind := none, retry := none, cause := some .command
          stepInFlight := false } };
      s.copy.request = .absent ∧ s.copy.job = some ⟨0, 15625, 0⟩ ∧ s.journal.TakesRecords ∧
      lands (.cancelRetire (leBytes 3 15625)) s { left with
        journal := s.journal.asked ⟨.cancelRec, 15625, 0, 0⟩, link := replied .ok [] } = true) ∧
    (let s : State := { atMemory ⟨⟨⟨262016, 3⟩, .write zeroLine fullMask false⟩, .hostWrite 4 .slot 0, false⟩
        (copying (entry .copying 20) .lineRead 20) with journal := offline.journal };
      let left : State := removeHolder .copy { s with
        remap := s.remap.set 0 (some (entry .aborting 20))
        copy := { s.copy with
          state := .aborting, data := none, writeKind := none, retry := none, cause := some .command
          stepInFlight := false } };
      s.copy.request = .absent ∧ s.journal.store ≠ .online ∧
      lands (.cancelRetire (leBytes 3 15625)) s { left with
        copy := { left.copy with cancelDone := true }, link := replied .ok [] } = true) := by decide +kernel

theorem once_of_stage (st : Stage) (cs : CopyState) (hc : cs ≠ .idle) :
    BoundOnce (copying (entry st 64) cs 63) := by
  have key : ∀ (i : Fin 128) (b : Binding), b ∈ (copying (entry st 64) cs 63).remap[i] →
      i = 0 ∧ b = entry st 64 := by
    intro i b hb
    have : (copying (entry st 64) cs 63).remap[i] = if (0 : Fin 128) = i then some (entry st 64) else none := by
      simp [copying, up, State.fresh, Vector.getElem_set, Fin.ext_iff]
    rw [this] at hb
    split at hb
    · simp only [Option.mem_def, Option.some.injEq] at hb
      exact ⟨Eq.symm (by assumption), hb.symm⟩
    · simp at hb
  refine ⟨?_, ?_, ?_, List.nodup_nil, nofun, nofun, ?_, nofun, nofun, nofun⟩
  · intro i j b hb c hc _; rw [(key i b hb).1, (key j c hc).1]
  · intro i b hb; rw [(key i b hb).2]; rfl
  · intro i b hb; rw [(key i b hb).2]; exact (by decide : 0 < geo.spareCount)
  · intro i b hb _; exact ⟨hc, by rw [(key i b hb).1]; rfl⟩

/-- COPYING, COMMITTING and ABORTING entries meet the uniqueness premise of CancelRetireByPlace. -/
theorem witness_CancelRetireByPlace_late :
    BoundOnce (copying (entry .copying 64) .beginning 63) ∧
    BoundOnce (copying (entry .copying 64) .lineRead 63) ∧
    BoundOnce (copying (entry .committing 64) .committing 63) ∧
    BoundOnce (copying (entry .aborting 64) .aborting 63) :=
  ⟨once_of_stage _ _ (by decide), once_of_stage _ _ (by decide), once_of_stage _ _ (by decide),
    once_of_stage _ _ (by decide)⟩

theorem witness_GeometryIsSet :
    up.link.busy = false ∧ up.mode ≠ .startup ∧
    (geometryOf [0, 0, 0, 0, 0, 0, 0]).valid = false ∧ (geometryOf [1, 0, 0, 0, 0, 0, 1]).valid = true ∧
    (bound.link.busy = false ∧ bound.remap[0] ≠ none) ∧
    ((∀ i : Fin 128, up.remap[i] = none) ∧ up.retire = [] ∧ up.copy.state = .idle ∧
      up.journal.store = .online ∧ up.journal.task = .idle ∧ up.journal.requests = []) ∧
    offline.journal.store ≠ .online ∧
    (let v : State := { up with
        geom := ⟨1, 0, 1⟩, health := emptyHealth
        sweep := { up.sweep with position := 0 }
        journal := { up.journal with
          task := .compact .geometry .a .erasing, requests := [.geometry], snapshot := some [] }
        link := waiting };
      settled v = true ∧ goes (.setGeometry [1, 0, 0, 0, 0, 0, 1]) up v = true) := by decide +kernel

theorem witness_StartsLeaveHold :
    (held.link.busy = false ∧ held.journal.task = .hold ∧ held.mode = .startup ∧
      held.journal.store ≠ .disabled ∧
      (let u : State := { held with
        journal := { held.journal with task := .replayHeaders none }, link := replied .ok [] };
      settled u = true ∧ goes (.start []) held u = true)) ∧
    (let s := State.fresh true false 0;
      s.journal.store = .disabled ∧ s.sweep.state = .waiting ∧
      let u : State := { s with
        mode := .online, journal := { s.journal with task := .idle }
        sweep := { s.sweep with timer := some s.sweep.interval }, link := replied .ok [] };
      settled u = true ∧ goes (.start []) s u = true ∧ goes (.cleanStart []) s u = true) := by
  decide +kernel

theorem witness_StoreIsDetachedAndAttached :
    up.link.busy = false ∧ up.mode ≠ .startup ∧ offline.journal.store = .offline ∧
    ({ up with journal := { up.journal with store := .disabled } } : State).journal.store = .disabled ∧
    (up.journal.store = .online ∧ up.journal.task = .idle ∧ up.journal.requests = [] ∧
      let u : State := { up with
        journal := { up.journal with store := .offline }
        remap := journalFlags false up.remap, link := replied .ok [] };
      settled u = true ∧ goes (.storeDetach []) up u = true) ∧
    (let s := doing (.compact .append .a .header);
      s.journal.store = .online ∧ s.journal.task ≠ .idle ∧
      let u : State := { s with
        journal := { s.journal with requests := s.journal.requests ++ [.detach] }, link := waiting };
      settled u = true ∧ goes (.storeDetach []) s u = true) ∧
    (doing .raw).journal.task = .raw ∧
    (let u : State := { offline with
        journal := { offline.journal with task := .attachReady, requests := [.attach] }, link := waiting };
      settled u = true ∧ goes (.storeAttach []) offline u = true) := by decide +kernel

/-- A raw session open, with a shift of one byte that closes it and one of sixteen that does not. -/
theorem witness_RawSessionsShiftBytes :
    (up.journal.store ≠ .offline ∧ up.link.busy = false ∧ up.mode ≠ .startup) ∧
    (offline.journal.store = .offline ∧ offline.journal.task ≠ .raw ∧ offline.link.busy = false) ∧
    (List.replicate 16 (0 : Byte)).length ≤ 16 ∧
    ((0x01 : Byte).getLsbD 0 = true ∧ (0x02 : Byte).getLsbD 0 = false) ∧
    (let s : State := { offline with
        journal := { offline.journal with task := .raw }, link := { waiting with raw := some ⟨[0x9F], true⟩ } };
      s.journal.task = .raw ∧ s.journal.store = .offline ∧
      let u : State := { s with
        journal := { s.journal with task := .idle }, link := replied .ok [0xC2] };
      settled u = true ∧ goes (.rawShiftDone [0xC2]) s u = true) ∧
    (let s : State := { offline with
        journal := { offline.journal with task := .raw }
        link := { waiting with raw := some ⟨List.replicate 16 0, false⟩ } };
      let u : State := { s with link := replied .ok (List.replicate 16 1) }
      settled u = true ∧ goes (.rawShiftDone (List.replicate 16 1)) s u = true) := by decide +kernel

/-- Each cause of R36 in turn, and none of them. -/
theorem witness_AcceptHasFourCauses :
    accept held = false ∧ accept { up with pins := { up.pins with hostReset := true } } = false ∧
    accept { up with hold := [0, 1, 2, 3, 4, 5, 6, 7] } = false ∧
    accept { up with host := { up.host with requests := List.finRange 32 } } = false ∧ accept up = true ∧
    accept { up with hold := [0, 1, 2, 3, 4, 5, 6] } = true := by decide +kernel

theorem witness_HostRequestsAreQueued :
    accept up = true ∧ up.host.recs[4] = none ∧ up.geom.usable ((line 3).toNat / 64) = true ∧
    (∀ t ∈ up.hold, ∀ r ∈ up.host.recs[t], r.line ≠ line 3) ∧ (1 : ByteMask) ≠ 0 ∧
    up.locks.lockedAt (resolve up.geom up.remap true (line 3)) = false := by decide +kernel

/-- The first line of the pool and the first line out of range. -/
theorem witness_HostRequestsAreAnsweredAtOnce :
    accept up = true ∧ up.host.recs[4] = none ∧
    up.geom.inPool ((16769024 : HostLine).toNat / 64) = true ∧
    up.geom.memSize * 64 ≤ (16777216 : HostLine).toNat ∧
    up.geom.usable ((16769023 : HostLine).toNat / 64) = true := by decide +kernel

/-- A held request for the line, with no lock; and a lock on the line, with no held request. -/
theorem witness_HostRequestsAreHeld :
    (let s : State := { outstanding { writeRec with place := .held } up with hold := [4] };
      accept s = true ∧ s.host.recs[9] = none ∧ s.geom.usable ((line 3).toNat / 64) = true ∧
      ∃ t ∈ s.hold, ∃ r ∈ s.host.recs[t], r.line = line 3) ∧
    (let s := lockCopy ⟨15625, 3⟩ up;
      accept s = true ∧ s.locks.lockedAt (resolve s.geom s.remap true (line 3)) = true) := by decide +kernel

theorem witness_DuplicateTagsAreDiscarded :
    accept (outstanding readRec up) = true ∧ (outstanding readRec up).host.recs[4] ≠ none := by decide +kernel

theorem witness_HostResetClearsHostTraffic : up.pins.hostReset = false := by decide

/-- An orphan write answered DONE, and a read of before the reset answered CLEAN. -/
theorem witness_HostResetClearsHostTraffic_late :
    (let i : Issue := ⟨⟨⟨3, 3⟩, .write zeroLine 1 false⟩, .orphan, false⟩;
      i.origin.forgotten up.host.era = true ∧ i.req.endsInError .done = false ∧
      lands (.downstreamResponse 0 .done zeroLine) (atMemory i up) up = true) ∧
    (let s : State := { atMemory ⟨⟨⟨3, 3⟩, .read⟩, .hostRead 4 0, false⟩ up with host := { up.host with era := 1 } };
      Originator.forgotten s.host.era (.hostRead 4 0) = true ∧
      lands (.downstreamResponse 0 .clean zeroLine) s { up with host := s.host } = true) := by decide +kernel

/-- The last line below copied and the first at it, for COPYING; and an entry of each other state. -/
theorem witness_ResolutionFollowsTheEntry :
    (∀ i : Fin 128, ∀ b ∈ up.remap[i], b.span ≠ 15625) ∧ (line 19).toNat / 64 = 15625 ∧
    (line 19).toNat % 64 = 19 ∧ (line 20).toNat % 64 = 20 ∧
    (let r := (copying (entry .copying 20) .lineRead 20).remap;
      r[0] = some (entry .copying 20) ∧ (entry .copying 20).span = 15625 ∧
      (∀ j : Fin 128, ∀ c ∈ r[j], c.span = 15625 → j = 0) ∧ 19 < (entry .copying 20).copied ∧
      (entry .copying 20).copied ≤ 20) := by decide +kernel

/-- The front follow-on item: an orphan write, a ladder's retry; and each kind of request item. -/
theorem witness_ForegroundHeadIsIssued :
    up.mode ≠ .startup ∧ up.port.tags[0] = .free ∧ bgPresented up = false ∧
    (let i : Issue := ⟨⟨⟨3, 3⟩, .write zeroLine 1 false⟩, .orphan, false⟩;
      ∀ k t e, i.origin ≠ .ladderRetry k t e) ∧
    (let s : State := { up with host := { up.host with ladders := up.host.ladders.set 0 (some ⟨4, ⟨3, 3⟩, 0, 2⟩) } };
      s.host.ladders[0] = some ⟨4, ⟨3, 3⟩, 0, 2⟩) ∧
    (let s := queued readRec up;
      s.host.followOns = [] ∧ s.host.requests = [4] ∧ s.host.headWaits = false ∧
      s.host.recs[4] = some readRec ∧ readRec.op = .read ∧ bgPresented s = false) ∧
    (let s := queued writeRec up;
      s.host.recs[4] = some writeRec ∧ writeRec.op = .write zeroLine fullMask ∧
      resolve s.geom s.remap true writeRec.line = ⟨⟨15625, 3⟩, none⟩ ∧ s.locks.locked ⟨15625, 3⟩ = false) ∧
    (let s := queued writeRec (copying (entry .copying 20) .lineRead 20);
      resolve s.geom s.remap true writeRec.line = ⟨⟨15625, 3⟩, some ⟨262016, 3⟩⟩ ∧
      s.locks.locked ⟨15625, 3⟩ = false ∧ s.locks.locked ⟨262016, 3⟩ = false ∧ bgPresented s = false) := by
  refine ⟨by decide, by decide +kernel, by decide +kernel, ?_, by decide +kernel, by decide +kernel,
    by decide +kernel, by decide +kernel⟩
  intro k t e; nofun

theorem lowest_free (s : State) (h : s.port.tags[0] = .free) : s.port.LowestFree 0 :=
  ⟨h, fun e he => absurd he (by simp)⟩

/-- A copy read of a line presented, and a sweep read alone. -/
def copyWaits : State :=
  { copying (entry .copying 20) .lineRead 20 with
    copy := { (copying (entry .copying 20) .lineRead 20).copy with
      request := .presented ⟨⟨⟨15625, 20⟩, .read⟩, .copyRead, false⟩ } }

def sweepWaits : State :=
  { up with sweep := { up.sweep with
      state := .reading, line := some ⟨300, 12⟩, timer := none
      request := .presented ⟨⟨⟨300, 12⟩, .read⟩, .sweepRead, false⟩ } }

/-- Both classes presented below the share and at it; each class alone; and no FREE tag. -/
theorem witness_ArbiterSharesGrants :
    (fgPresented up = false ∧ bgPresented up = false) ∧
    (∀ d : PortTag, (Vector.replicate 64 TagState.quarantined)[d] ≠ .free) ∧
    (let s := queued readRec copyWaits;
      s.mode ≠ .startup ∧ s.port.tags[0] = .free ∧ fgPresented s = true ∧ bgPresented s = true ∧
      s.port.share < s.params.bgShare ∧ s.params.bgShare ≤ 4) ∧
    (fgPresented copyWaits = false ∧
      copyWaits.copy.request = .presented ⟨⟨⟨15625, 20⟩, .read⟩, .copyRead, false⟩) ∧
    (fgPresented sweepWaits = false ∧ sweepWaits.copy.request = .absent ∧
      sweepWaits.sweep.request = .presented ⟨⟨⟨300, 12⟩, .read⟩, .sweepRead, false⟩) := by decide +kernel

/-- Both classes presented below the share: a follow-on item at the head, a read and a write. -/
theorem witness_ArbiterSharesGrants_foreground :
    (let s : State := { copyWaits with host := { copyWaits.host with
        followOns := [⟨⟨⟨3, 3⟩, .write zeroLine 1 false⟩, .orphan, false⟩] } };
      fgPresented s = true ∧ bgPresented s = true ∧ s.port.share < s.params.bgShare) ∧
    (let s := queued writeRec copyWaits;
      fgPresented s = true ∧ bgPresented s = true ∧ s.host.followOns = [] ∧ s.host.requests = [4] ∧
      s.host.recs[4] = some writeRec) := by decide +kernel

/-- A locked write at the head: with room for it, and with a Hold List of 8. -/
theorem witness_LockedHeadIsDiverted :
    let s := queued writeRec (lockCopy ⟨15625, 3⟩ up);
    s.host.followOns = [] ∧ s.host.headWaits = false ∧ s.host.requests = [4] ∧
    s.host.recs[4] = some writeRec ∧ writeRec.op ≠ .read ∧
    s.locks.lockedAt (resolve s.geom s.remap true writeRec.line) = true ∧
    s.hold.length + 1 + 0 ≤ 8 ∧ ([0, 1, 2, 3, 5, 6, 7] : List HostTag).length + 1 + 0 ≤ 8 ∧
    8 < ([0, 1, 2, 3, 5, 6, 7, 8] : List HostTag).length + 1 + 0 ∧
    s.hold.Pairwise (fun a b => s.host.arrivalOf a ≤ s.host.arrivalOf b) := by decide +kernel

/-- COPY alone on a line of the source; and LADDER0 with it. -/
theorem witness_LastHolderReleasesTheLine :
    let s := lockCopy ⟨15625, 20⟩ up;
    s.locks.lineOf .copy = some ⟨15625, 20⟩ ∧ s.host.headWaits = false ∧
    servedLine s ⟨15625, 20⟩ = some 1000020 ∧
    s.locks.holders ⟨15625, 20⟩ = [.copy] ∧
    ({ s.locks with ladders := s.locks.ladders.set 0 (some ⟨15625, 20⟩) } : Locks).holders ⟨15625, 20⟩
      = [.copy, .ladder 0] := by decide +kernel

/-- A waiting head: its line still locked by another holder, and locked no longer. -/
theorem witness_LastHolderReleasesTheLine_head :
    let w (s : State) : State := { s with host := { s.host with headWaits := true } };
    let s := w (queued writeRec (lockCopy ⟨15625, 3⟩ up));
    (s.locks.lineOf .copy = some ⟨15625, 3⟩ ∧ s.host.headWaits = true ∧
      headLocked (removeHolder .copy { s with host := { s.host with headWaits := false } }) = false) ∧
    (let t : State := w (queued writeRec { lockCopy ⟨300, 3⟩ up with
        locks := { up.locks with copy := some ⟨300, 3⟩, sweep := some ⟨15625, 3⟩ } });
      t.locks.lineOf .copy = some ⟨300, 3⟩ ∧ t.host.headWaits = true ∧ t.host.followOns = [] ∧
      headLocked (removeHolder .copy { t with host := { t.host with headWaits := false } }) = true) := by
  decide +kernel

/-- A host read at memory on downstream tag 0. -/
def reading : State := outstanding readRec (atMemory ⟨⟨⟨15625, 3⟩, .read⟩, .hostRead 4 0, false⟩ up)

theorem witness_HostReadsComplete :
    reading.port.tags[0] = .inUse ⟨⟨⟨15625, 3⟩, .read⟩, .hostRead 4 reading.host.era, false⟩ ∧
    (∀ o : ReadOutcome, o = .good ∨ o = .poisoned →
      let u : State := { up with host := { up.host with sent := [.readData 4 o zeroLine false] } };
      settled u = true ∧
        goes (.downstreamResponse 0 (if o = .good then .clean else .poisoned) zeroLine) reading u = true) ∧
    (let u := healthIncrement 15625 false .host
        { up with host := { up.host with sent := [.readData 4 .good zeroLine false] } };
      settled u = true ∧ goes (.downstreamResponse 0 .fixed zeroLine) reading u = true) ∧
    (let p : Params := { up.params with retryLimit := 0, autoRetire := false };
      let h := offer (lineEvent .uncorrectable .host ⟨15625, 3⟩ (some 0)) (healthIncrement 15625 true .host
        { up with params := p, host := { up.host with sent := [.readData 4 .poisoned zeroLine false] } });
      let u : State := { h with stats := { h.stats with finalFailedReads := 1 } };
      settled u = true ∧ goes (.downstreamResponse 0 .failed zeroLine) { reading with params := p } u = true) ∧
    (reading.params.retryLimit ≠ 0 ∧ reading.host.ladders[0] = none ∧ reading.host.recs[4] = some readRec ∧
      settled (after (.downstreamResponse 0 .failed zeroLine) reading) = true) := by
  refine ⟨by decide +kernel, ?_, by decide +kernel, by decide +kernel, by decide +kernel⟩
  rintro o (rfl | rfl) <;> decide +kernel

/-- A retry READ of ladder 0: recovered, and FAILED with a retry left and with none. -/
def retrying (used : Nat) : State :=
  let s := outstanding { readRec with place := .ladder 0 }
    (atMemory ⟨⟨⟨15625, 3⟩, .read⟩, .ladderRetry 0 4 0, false⟩ up)
  { s with
    params := { s.params with autoRetire := false }
    host := { s.host with ladders := s.host.ladders.set 0 (some ⟨4, ⟨15625, 3⟩, used, 2⟩) }
    locks := { s.locks with ladders := s.locks.ladders.set 0 (some ⟨15625, 3⟩) } }

theorem witness_HostReadsComplete_retry :
    (retrying 1).host.ladders[0] = some ⟨4, ⟨15625, 3⟩, 1, 2⟩ ∧
    (retrying 1).port.tags[0] = .inUse ⟨⟨⟨15625, 3⟩, .read⟩, .ladderRetry 0 4 (retrying 1).host.era, false⟩ ∧
    (let base : State := { up with params := { up.params with autoRetire := false } };
      let sent (o : ReadOutcome) : State :=
        { base with host := { base.host with sent := [.readData 4 o zeroLine false] } };
      let t := offer (lineEvent .transient .host ⟨15625, 3⟩ (some 1)) (sent .good);
      let recovered : State := { t with stats := { t.stats with transientRecoveries := 1 } };
      let lost := offer (lineEvent .uncorrectable .host ⟨15625, 3⟩ (some 2))
        (healthIncrement 15625 true .host (sent .poisoned));
      lands (.downstreamResponse 0 .clean zeroLine) (retrying 1) recovered = true ∧
      lands (.downstreamResponse 0 .fixed zeroLine) (retrying 1) (healthIncrement 15625 false .host recovered)
        = true ∧
      lands (.downstreamResponse 0 .poisoned zeroLine) (retrying 1) (sent .poisoned) = true ∧
      lands (.downstreamResponse 0 .failed zeroLine) (retrying 2)
        { lost with stats := { lost.stats with finalFailedReads := 1 } } = true) ∧
    (let s := retrying 1;
      lands (.downstreamResponse 0 .failed zeroLine) s { s with
        port := up.port
        host := { s.host with followOns := [⟨⟨⟨15625, 3⟩, .read⟩, .ladderRetry 0 4 0, false⟩] } } = true) := by
  decide +kernel

/-- A write half DONE with one location, with its other half FAILED, and with it PENDING. -/
theorem witness_HostWritesComplete :
    let i : Issue := ⟨⟨⟨15625, 3⟩, .write zeroLine fullMask false⟩, .hostWrite 4 .source 0, false⟩;
    let r (x : Option HalfResult) : HostRec := { writeRec with sourceHalf := some .pending, slotHalf := x };
    let sent (o : WriteOutcome) : State := { up with host := { up.host with sent := [.writeDone 4 o false] } };
    (settled (sent .done) = true ∧
      goes (.downstreamResponse 0 .done zeroLine) (outstanding (r none) (atMemory i up)) (sent .done) = true) ∧
    (settled (sent .dropped) = true ∧
      goes (.downstreamResponse 0 .done zeroLine) (outstanding (r (some .failed)) (atMemory i up))
        (sent .dropped) = true) ∧
    (let u := outstanding { r (some .pending) with sourceHalf := some .done } up;
      settled u = true ∧
      goes (.downstreamResponse 0 .done zeroLine) (outstanding (r (some .pending)) (atMemory i up)) u = true) := by
  decide +kernel

/-- The slot half DONE with its source half FAILED, DONE and PENDING. -/
theorem witness_HostWritesComplete_slot :
    let i : Issue := ⟨⟨⟨262016, 3⟩, .write zeroLine fullMask false⟩, .hostWrite 4 .slot 0, false⟩;
    let r (x : HalfResult) : HostRec := { writeRec with sourceHalf := some x, slotHalf := some .pending };
    let sent (o : WriteOutcome) : State := { up with host := { up.host with sent := [.writeDone 4 o false] } };
    lands (.downstreamResponse 0 .done zeroLine) (outstanding (r .failed) (atMemory i up)) (sent .dropped) = true ∧
    lands (.downstreamResponse 0 .done zeroLine) (outstanding (r .done) (atMemory i up)) (sent .done) = true ∧
    lands (.downstreamResponse 0 .done zeroLine) (outstanding (r .pending) (atMemory i up))
      (outstanding { r .pending with slotHalf := some .done } up) = true := by
  decide +kernel

/-- A FREE tag, a QUARANTINED one, and a first issue whose reissue waits in the follow-on items. -/
theorem witness_FirstErrorsAreReissued :
    up.port.tags[0] = .free ∧
    (Vector.replicate 64 TagState.quarantined)[0] = .quarantined ∧
    (let i : Issue := ⟨⟨⟨15625, 3⟩, .read⟩, .hostRead 4 0, false⟩;
      let t := offer (lineEvent .memoryError .port ⟨15625, 3⟩ (some 1)) (outstanding readRec up);
      let u : State := { t with host := { t.host with followOns := [{ i with reissue := true }] } };
      reading.port.tags[0] = .inUse i ∧ settled u = true ∧
      goes (.downstreamResponse 0 .error zeroLine) reading u = true ∧
      settled (after (.tagTimeout 0) reading) = true) := by decide +kernel

/-- A READ answered DONE, a write answered CLEAN, and a read and a write of before a reset. -/
theorem witness_FirstErrorsAreReissued_kinds :
    let told (p : PhysLine) (s : State) : State := offer (lineEvent .memoryError .port p (some 1)) s;
    let w : Issue := ⟨⟨⟨3, 3⟩, .write zeroLine 1 false⟩, .hostWrite 4 .source 0, false⟩;
    let old (i : Issue) : State := { atMemory i up with host := { up.host with era := 1 } };
    (DownReq.endsInError ⟨⟨15625, 3⟩, .read⟩ .done = true ∧
      settled (after (.downstreamResponse 0 .done zeroLine) reading) = true) ∧
    (w.req.endsInError .clean = true ∧
      lands (.downstreamResponse 0 .clean zeroLine) (old w) (told ⟨3, 3⟩ { up with host := { up.host with
        era := 1, followOns := [{ w with origin := .orphan, reissue := true }] } }) = true) ∧
    lands (.downstreamResponse 0 .error zeroLine) (old ⟨⟨⟨3, 3⟩, .read⟩, .hostRead 4 0, false⟩)
      (told ⟨3, 3⟩ { up with host := { up.host with era := 1 } }) = true := by decide +kernel

/-- The reissue of a host read, and of a host write with one location. -/
theorem witness_SecondErrorsFence :
    (let s := outstanding readRec (atMemory ⟨⟨⟨15625, 3⟩, .read⟩, .hostRead 4 0, true⟩ up);
      s.port.tags[0] = .inUse ⟨⟨⟨15625, 3⟩, .read⟩, .hostRead 4 s.host.era, true⟩) ∧
    (let i : Issue := ⟨⟨⟨15625, 3⟩, .write zeroLine fullMask false⟩, .hostWrite 4 .source 0, true⟩;
      let s := outstanding writeRec (atMemory i up);
      s.port.tags[0] = .inUse i ∧ s.mode ≠ .fenced ∧ s.sweep.state = .waiting ∧
      i.origin.isHostWrite = true ∧ s.host.recs[4] = some writeRec ∧ writeRec.slotHalf = none) := by
  decide +kernel

/-- The copy engine's request at memory on tag 0, with its state, cursor, slot write kind and retries. -/
def copyAt (i : Issue) (st : CopyState) (cursor : Nat) (k : Option WriteKind) (r : Option Retry) : State :=
  let c := copying (entry .copying cursor) st cursor
  atMemory i { c with copy := { c.copy with request := .atMemory, writeKind := k, retry := r } }

/-- The sweep's request at memory on tag 0, with its state and retries. -/
def sweepAt (i : Issue) (st : SweepState) (r : Option Retry) : State :=
  atMemory i { up with
    sweep := { up.sweep with
      state := st, position := 19212, line := some ⟨300, 12⟩, timer := none, retry := r, request := .atMemory }
    locks := { up.locks with sweep := some ⟨300, 12⟩ } }

/-- A journal at work that takes records, and the same with its store OFFLINE. -/
def working (s : State) : State := { s with journal := (doing (.compact .attach .a .header)).journal }
def unstored (s : State) : State := { s with journal := offline.journal }

/-- Second errors of each originator: by a response and by a timeout; in ONLINE and in FENCED. -/
theorem witness_SecondErrorsFence_originators :
    (let i : Issue := ⟨⟨⟨15625, 20⟩, .read⟩, .copyRead, true⟩;
      let s := working (copyAt i .lineRead 20 none none);
      s.port.tags[0] = .inUse i ∧ i.req.endsInError .done = true ∧ inCopying s.copy = true ∧
      s.copy.cancelDone = false ∧ s.copy.request = .atMemory ∧ s.remap[0] = some (entry .copying 20) ∧
      s.journal.TakesRecords ∧ s.journal.task ≠ .idle ∧
      (after (.tagTimeout 0) s).copy.cause = some .fence ∧
      (unstored s).journal.store ≠ .online ∧ serveDue (unstored s) = false ∧
      spanWriteInFlight (offer (lineEvent .memoryError .port i.req.line (some 3))
        { unstored s with port := { s.port with tags := s.port.tags.set 0 .free } }) 262016 = false ∧
      (after (.downstreamResponse 0 .error zeroLine) (unstored s)).copy = idleCopy false) ∧
    (let i : Issue := ⟨⟨⟨300, 12⟩, .read⟩, .sweepRead, true⟩;
      let s := sweepAt i .reading none;
      s.port.tags[0] = .inUse i ∧ i.origin.isSweep = true ∧ lineInProgress s.sweep = true ∧
      (after (.tagTimeout 0) s).sweep.line = none) ∧
    (let i : Issue := ⟨⟨⟨15625, 3⟩, .read⟩, .hostRead 4 0, true⟩;
      let s : State := { outstanding readRec (atMemory i up) with
        sweep := { up.sweep with state := .reading, line := some ⟨300, 12⟩, timer := none, request := .atMemory } };
      lineInProgress s.sweep = true ∧ i.origin.isSweep = false ∧ s.mode ≠ .fenced) ∧
    (let i : Issue := ⟨⟨⟨15625, 3⟩, .read⟩, .ladderRetry 0 4 0, true⟩;
      let s := atMemory i (retrying 1);
      s.port.tags[0] = .inUse i ∧ i.origin = .ladderRetry 0 4 s.host.era ∧ i.req.endsInError .error = true) ∧
    (let i : Issue := ⟨⟨⟨15625, 3⟩, .write zeroLine fullMask false⟩, .hostWrite 4 .source 0, true⟩;
      let r : HostRec := { writeRec with sourceHalf := some .pending, slotHalf := some .pending };
      let s := outstanding r (atMemory i fenced);
      let told := offer (lineEvent .memoryError .port i.req.line (some 3)) (outstanding r fenced);
      s.port.tags[0] = .inUse i ∧ s.mode = .fenced ∧
      lands (.downstreamResponse 0 .error zeroLine) s
        { told with host := (outstanding { r with sourceHalf := some .failed } fenced).host } = true) := by
  decide +kernel

/-- An entry one below its thresholds after the count; a new entry; and a table of 64 failed entries. -/
theorem witness_IncrementsAreCounted :
    (let h : Health := up.health.set 0 (some ⟨15625, false, 14, 0, 0, 0, false⟩);
      h[0] = some ⟨15625, false, 14, 0, 0, 0, false⟩ ∧ 14 + 1 < up.params.fixedThreshold ∧
      0 < up.params.failedThreshold) ∧
    ((∀ j : Fin 64, ∀ f ∈ up.health[j], f.span ≠ 15625) ∧ up.health[0] = none ∧
      1 < up.params.fixedThreshold) ∧
    victim 0 (up.health.set 3 (some ⟨15625, false, 14, 0, 0, 0, false⟩)) = some 3 ∧
    (∀ j : Fin 64, ((Vector.ofFn fun k : Fin 64 => some (⟨k.val, false, 0, 1, 0, 0, false⟩ : HealthEntry))[j]).any
      (fun f => f.span != 15625 && decide (0 < f.failed)) = true) := by decide +kernel

/-- A one-entry table. -/
def tabled (e : HealthEntry) (s : State) : State := { s with health := s.health.set 0 (some e) }

/-- At threshold: a SPARE entry, a HOST entry with auto-retire off, and with it on in each of its cases. -/
theorem witness_IncrementsAreCounted_thresholds :
    let at15 : HealthEntry := ⟨15625, false, 15, 0, 0, 0, false⟩;
    let off (s : State) : State := { s with params := { s.params with autoRetire := false } };
    (let e : HealthEntry := ⟨262017, true, 15, 0, 0, 0, false⟩;
      let s := tabled e up;
      s.health[0] = some e ∧ s.params.fixedThreshold ≤ min 255 (e.fixed + 1) ∧
      healthIncrement 262017 false .host s = { offer (spanEvent .spareDegraded .host 262017 (some 1) (some 1)) s with
        health := s.health.set 0 (some { e with fixed := 16, reported := true }) }) ∧
    (let s := off (tabled { at15 with reported := true } up);
      healthIncrement 15625 true .host s
        = { s with health := s.health.set 0 (some { at15 with failed := 1, reported := true }) }) ∧
    (fenced.mode ≠ .online ∧ (up.params.autoRetire = true ∧ up.geom.usable 15625 = true ∧ up.mode = .online) ∧
      (∀ q ∈ up.retire, q.span ≠ 15625) ∧ (∀ k : Fin 128, ∀ b ∈ up.remap[k], b.span ≠ 15625) ∧
      up.retire.length < 8) ∧
    (let s : State := { tabled at15 up with retire := (List.range 8).map (fun k => ⟨k, .auto⟩) };
      8 ≤ s.retire.length ∧ (∀ q ∈ s.retire, q.span ≠ 15625)) ∧
    (∃ i : Fin 64, ∃ e, (tabled at15 up).health[i] = some e ∧ e.failed = 0) := by
  refine ⟨by decide +kernel, by decide +kernel, by decide +kernel, by decide +kernel, 0, _, rfl, rfl⟩

theorem witness_one_entry_sound :
    HealthSound (up.health.set 0 (some ⟨15625, false, 14, 0, 0, 0, false⟩)) := by
  have key : ∀ (i : Fin 64) (e : HealthEntry),
      e ∈ (up.health.set 0 (some ⟨15625, false, 14, 0, 0, 0, false⟩))[i] →
      i = 0 ∧ e = ⟨15625, false, 14, 0, 0, 0, false⟩ := by decide +kernel
  exact ⟨fun i e he => by rw [(key i e he).2]; decide,
    fun i j e he f hf _ => by rw [(key i e he).1, (key j f hf).1]⟩

/-- A fixed count of 1 with no failed reads; one of 2; and one of 0 with a failed read. -/
theorem witness_DecayHalvesFixedCounts :
    let e (fixed failed : Nat) : HealthEntry := ⟨15625, false, fixed, failed, 0, 0, true⟩;
    up.health[1] = none ∧ (up.health.set 0 (some (e 1 0)))[0] = some (e 1 0) ∧ (e 1 0).fixed < 2 ∧
    2 ≤ (e 2 0).fixed ∧ 0 < (e 0 1).failed := by decide +kernel

/-- A queued span and an IDLE copy engine. -/
def mayCopy (s : State) : State := { s with retire := [⟨15625, .auto⟩] }

theorem witness_CopiesStart :
    (let s := mayCopy (doing (.compact .attach .a .header));
      s.copy.state = .idle ∧ s.mode = .online ∧ s.remap[0] = none ∧ 0 < s.geom.spareCount ∧
      (∀ i : Fin 128, ∀ b ∈ s.remap[i], b.slot ≠ 0) ∧ s.journal.store = .online ∧ s.journal.task ≠ .raw ∧
      s.journal.task ≠ .idle ∧
      (let u : State := { offer (spanEvent .retireStarted .copy 15625 (some 0) (some 0)) s with
        retire := []
        remap := s.remap.set 0 (some (entry .copying 0))
        copy := { idleCopy false with state := .beginning, job := some ⟨0, 15625, 0⟩ }
        journal := { s.journal with requests := [.record ⟨.beginRec, 15625, 0, 0⟩] } };
      settled u = true ∧ goes .copyStart s u = true)) ∧
    (let s := mayCopy offline;
      s.journal.store ≠ .online ∧ s.journal.requests = [] ∧ hostWriteAt s ⟨15625, 0⟩ = false ∧
      s.locks.sweep ≠ some ⟨15625, 0⟩ ∧
      (let u : State := { offer (spanEvent .retireStarted .copy 15625 (some 0) (some 0)) s with
        retire := []
        remap := s.remap.set 0 (some (entry .copying 0))
        copy := { idleCopy false with
          state := .lineRead, job := some ⟨0, 15625, 0⟩
          request := .presented ⟨⟨⟨15625, 0⟩, .read⟩, .copyRead, false⟩ }
        locks := { s.locks with copy := some ⟨15625, 0⟩ } };
      settled u = true ∧ goes .copyStart s u = true)) ∧
    (let s : State := { mayCopy up with geom := { geo with spareCount := 0 } };
      s.geom.spareCount = 0 ∧ s.copy.exhausted = false ∧
      (let u : State := { offer (spanEvent .spareExhausted .copy 15625 none (some 0)) s with
        copy := { s.copy with exhausted := true } };
      settled u = true ∧ serveDue s = false ∧ goes .copyStart s u = true)) ∧
    (let s := copying (entry .copying 63) .lineRead 63;
      s.copy.request = .absent ∧ s.copy.job = some ⟨0, 15625, 0⟩ ∧ hostWriteAt s ⟨15625, 63⟩ = false ∧
      s.locks.sweep ≠ some ⟨15625, 63⟩) := by decide +kernel

/-- No slot left and the report made. -/
theorem witness_CopiesStart_reported :
    let s : State := { mayCopy up with geom := { geo with spareCount := 0 }, copy := idleCopy true };
    s.copy.exhausted = true ∧ s.copy.state = .idle ∧ s.geom.spareCount = 0 ∧ lands .copyStart s s = true := by
  decide +kernel

/-- The READ at memory, and the slot write of line 62 at memory. -/
theorem witness_CopyLinesAdvance :
    (let s := atMemory ⟨⟨⟨15625, 20⟩, .read⟩, .copyRead, false⟩ (copying (entry .copying 20) .lineRead 20);
      let u : State := { copying (entry .copying 20) .lineRead 20 with
        copy := { (copying (entry .copying 20) .lineRead 20).copy with
          state := .lineWrite, data := some zeroLine, writeKind := some .plain
          request := .presented ⟨⟨⟨262016, 20⟩, .write zeroLine fullMask false⟩, .copyWrite, false⟩ } };
      s.copy.job = some ⟨0, 15625, 0⟩ ∧ settled u = true ∧
      goes (.downstreamResponse 0 .clean zeroLine) s u = true) ∧
    (let c := copying (entry .copying 62) .lineWrite 62;
      let s := atMemory ⟨⟨⟨262016, 62⟩, .write zeroLine fullMask false⟩, .copyWrite, false⟩
        { c with copy := { c.copy with writeKind := some .plain, request := .atMemory } };
      s.copy.writeKind = some .plain ∧ s.copy.cursor < 63 ∧ serveDue s = false ∧
      s.remap[0] = some (entry .copying 62) ∧
      (after (.downstreamResponse 0 .done zeroLine) s).copy.cursor = 63) := by decide +kernel

/-- A read, and a retry, of line 20 by each condition. -/
theorem witness_CopyLinesAdvance_reads :
    let slot : PhysLine := ⟨262016, 20⟩;
    let idle := copying (entry .copying 20) .lineRead 20;
    let quiet : State := { idle with params := { up.params with autoRetire := false } };
    let none0 (s : State) : State := { s with params := { s.params with retryLimit := 0, autoRetire := false } };
    let read := copyAt ⟨⟨⟨15625, 20⟩, .read⟩, .copyRead, false⟩ .lineRead 20 none none;
    let retry (n : Nat) : State := { copyAt ⟨⟨⟨15625, 20⟩, .read⟩, .copyRetry, false⟩ .lineRetry 20 none (some ⟨n, 2⟩)
      with params := quiet.params };
    let carried (m : Option Retry) (s : State) : State := { s with copy := { idle.copy with
      state := .lineWrite, data := some zeroLine, writeKind := some .plain, retry := m
      request := .presented ⟨⟨slot, .write zeroLine fullMask false⟩, .copyWrite, false⟩ } };
    let poisoned (k : WriteKind) (m : Option Retry) (s : State) : State := { s with copy := { idle.copy with
      state := .lineWrite, writeKind := some k, retry := m
      request := .presented ⟨⟨slot, .write zeroLine fullMask true⟩, .copyWrite, false⟩ } };
    let retried (r : Retry) (s : State) : State := { s with copy := { idle.copy with
      state := .lineRetry, retry := some r
      request := .presented ⟨⟨⟨15625, 20⟩, .read⟩, .copyRetry, false⟩ } };
    let go (c : Condition) : Instr := .downstreamResponse 0 c zeroLine;
    lands (go .fixed) read (healthIncrement 15625 false .copy (carried none idle)) = true ∧
    lands (go .poisoned) read (poisoned .poisonCarried none idle) = true ∧
    lands (go .failed) (none0 read) (healthIncrement 15625 true .copy (poisoned .poisonFailed none (none0 idle)))
      = true ∧
    lands (go .failed) read (retried ⟨0, 2⟩ idle) = true ∧
    lands (go .clean) (retry 1)
      (carried (some ⟨1, 2⟩) (offer (lineEvent .transient .copy ⟨15625, 20⟩ (some 1)) quiet)) = true ∧
    lands (go .poisoned) (retry 2) (poisoned .poisonCarried (some ⟨2, 2⟩) quiet) = true ∧
    lands (go .failed) (retry 1) (retried ⟨1, 2⟩ quiet) = true ∧
    lands (go .failed) (retry 2)
      (healthIncrement 15625 true .copy (poisoned .poisonFailed (some ⟨2, 2⟩) quiet)) = true := by
  decide +kernel

/-- A marked slot write of line 62 DONE, and one of line 63 with the store ONLINE and not. -/
theorem witness_CopyLinesAdvance_writes :
    let write (n : Nat) (k : WriteKind) : State :=
      copyAt ⟨⟨⟨262016, n⟩, .write zeroLine fullMask true⟩, .copyWrite, false⟩ .lineWrite n (some k) none;
    let go : Instr := .downstreamResponse 0 .done zeroLine;
    let carry (n v : Nat) : Event := { kind := .lineCarriedPoison, source := .copy, span := some 15625
                                       offset := some n, slot := some 0, value := some v };
    (let s := write 62 .poisonFailed;
      let t := offer (carry 62 1) (copying { entry .copying 63 with poisoned := 1 } .lineRead 63);
      s.copy.cursor < 63 ∧ lands go s { t with
        copy := { t.copy with request := .presented ⟨⟨⟨15625, 63⟩, .read⟩, .copyRead, false⟩ }
        locks := { t.locks with copy := some ⟨15625, 63⟩ } } = true) ∧
    (let s := working (write 63 .poisonCarried);
      let t := offer (carry 63 2) (working (copying { entry .committing 64 with poisoned := 1 } .committing 63));
      s.journal.TakesRecords ∧ lands go s { t with
        journal := s.journal.asked ⟨.assignRec, 15625, 0, 1⟩ } = true) ∧
    (let s := unstored (write 63 .plain);
      let t := offer (spanEvent .retireDone .copy 15625 (some 0) (some 0)) (unstored up);
      s.journal.store ≠ .online ∧ lands go s { t with
        remap := up.remap.set 0 (some (entry .active 64)) } = true) := by decide +kernel

/-- An abort whose conditions hold; with a slot half of tag 4 waiting, and without. -/
def aborting : State :=
  { copying (entry .aborting 20) .aborting 20 with
    copy := { (copying (entry .aborting 20) .aborting 20).copy with cancelDone := true, cause := some .command } }

theorem witness_AbortsEnd :
    aborting.copy.state = .aborting ∧ aborting.copy.job = some ⟨0, 15625, 0⟩ ∧
    aborting.remap[0] = some (entry .aborting 20) ∧ spanWriteInFlight aborting 262016 = false ∧
    serveDue aborting = false ∧
    (let u : State := { offer (spanEvent .retireCancelled .copy 15625 (some 0) (some 1)) aborting with
        remap := aborting.remap.set 0 none, copy := idleCopy false };
      settled u = true ∧ goes .abortEnd aborting u = true) ∧
    (let r : HostRec := { writeRec with sourceHalf := some .done, slotHalf := some .pending };
      let o := outstanding r aborting;
      let s : State := { o with host := { o.host with
        followOns := [⟨⟨⟨262016, 3⟩, .write zeroLine fullMask false⟩, .hostWrite 4 .slot 0, false⟩] } };
      spanWriteInFlight s 262016 = false ∧ s.host.recs[4] = some r ∧
      (after .abortEnd s).host.sent = [.writeDone 4 .done false]) := by decide +kernel

/-- The step in flight of an abort ends: a read by each condition, the last retry, and a marked slot write. -/
theorem witness_AbortsEnd_step :
    let at' (i : Issue) (r : Option Retry) : State :=
      let c := copying (entry .aborting 20) .aborting 20
      working (atMemory i { c with
        params := { c.params with autoRetire := false }
        copy := { c.copy with request := .atMemory, retry := r, cause := some .command, stepInFlight := true } });
    let ended (s : State) : State := { s with
      port := up.port
      copy := { s.copy with retry := none, stepInFlight := false, request := .absent }
      journal := s.journal.asked ⟨.cancelRec, 15625, 0, 0⟩ };
    let go (c : Condition) : Instr := .downstreamResponse 0 c zeroLine;
    let read := at' ⟨⟨⟨15625, 20⟩, .read⟩, .copyRead, false⟩ none;
    let retry (n : Nat) := at' ⟨⟨⟨15625, 20⟩, .read⟩, .copyRetry, false⟩ (some ⟨n, 2⟩);
    let write := at' ⟨⟨⟨262016, 20⟩, .write zeroLine fullMask true⟩, .copyWrite, false⟩ none;
    (read.journal.TakesRecords ∧ read.remap[0] = some (entry .aborting 20)) ∧
    lands (go .clean) read (ended read) = true ∧
    lands (go .fixed) read (healthIncrement 15625 false .copy (ended read)) = true ∧
    lands (go .failed) (retry 1) (ended (retry 1)) = true ∧
    lands (go .failed) (retry 2) (healthIncrement 15625 true .copy (ended (retry 2))) = true ∧
    lands (go .done) write { ended write with
      remap := write.remap.set 0 (some { entry .aborting 21 with poisoned := 1 }) } = true ∧
    (let s : State := unstored { read with port := read.port };
      let held : State := { s with host := { s.host with
        followOns := [⟨⟨⟨262016, 3⟩, .write zeroLine fullMask false⟩, .hostWrite 4 .slot 0, true⟩] } };
      s.journal.store ≠ .online ∧ lands (go .poisoned) held { held with
        port := up.port
        copy := { held.copy with stepInFlight := false, request := .absent, cancelDone := true } } = true) := by
  decide +kernel

/-- A line under copy skipped, a line taken, and a line that has become quiet. -/
theorem witness_SweepTakesOrSkips :
    (let c := copying (entry .copying 20) .lineRead 20;
      let s : State := { c with sweep := { up.sweep with position := 1000020 } };
      s.sweep.state = .waiting ∧ s.sweep.timer = some 64 ∧ s.mode = .online ∧
      s.sweep.position + 1 < s.geom.memSize * 64 ∧ s.geom.inPool (s.sweep.position / 64) = false ∧
      s.geom.inPool ((s.sweep.position + 1) / 64) = false ∧ s.sweep.stats.skipped ≠ BitVec.allOnes 32 ∧
      sweepLine s s.sweep.position = none) ∧
    (sweepLine up 0 = some ⟨0, 0⟩ ∧ up.locks.locked ⟨0, 0⟩ = false ∧ up.sweep.request = .absent ∧
      up.sweep.position = 0) ∧
    (sweepLine (lockCopy ⟨0, 0⟩ up) 0 = some ⟨0, 0⟩ ∧ (lockCopy ⟨0, 0⟩ up).locks.locked ⟨0, 0⟩ = true) ∧
    (let s : State := { sweepWaits with sweep := { sweepWaits.sweep with request := .absent } };
      s.sweep.state = .reading ∧ s.sweep.line = some ⟨300, 12⟩ ∧ hostWriteAt s ⟨300, 12⟩ = false ∧
      slotHalfWaits s ⟨300, 12⟩ = false) := by decide +kernel

/-- The sweep's place on the last line below the pool, on its first line, and with no line above it. -/
theorem witness_SweepTakesOrSkips_places :
    let at' (n : Nat) (g : Geometry) : State := { up with geom := g, sweep := { up.sweep with position := n } };
    (let s := at' 16769023 geo;
      s.geom.inPool (s.sweep.position / 64) = false ∧ s.geom.inPool ((s.sweep.position + 1) / 64) = true ∧
      s.geom.memSize * 64 ≤ (s.geom.spareBase + s.geom.spareCount) * 64 ∧
      sweepLine active 1000000 = some ⟨262016, 0⟩) ∧
    (let s := at' 0 ⟨10, 0, 9⟩;
      s.geom.inPool (s.sweep.position / 64) = true ∧ (s.geom.spareBase + s.geom.spareCount) * 64 < s.geom.memSize * 64 ∧
      goes .sweepIntervalExpiry s (after .sweepIntervalExpiry (at' 576 ⟨10, 0, 9⟩)) = true) ∧
    (let s := at' 16769024 geo;
      s.sweep.timer = some 64 ∧ s.mode = .online ∧ s.geom.inPool (s.sweep.position / 64) = true) ∧
    (up.sweep.stats.linesRead ≠ BitVec.allOnes 32 ∧ up.sweep.stats.fixed ≠ BitVec.allOnes 32 ∧
      up.sweep.stats.failed ≠ BitVec.allOnes 32 ∧ up.sweep.stats.poisonedFound ≠ BitVec.allOnes 32) ∧
    (let s : State := { (sweepAt ⟨⟨⟨300, 12⟩, .read⟩, .sweepRead, false⟩ .reading none) with
        hold := [4], sweep := { up.sweep with position := 1000003 } };
      ∃ t ∈ s.hold, ∃ r ∈ (outstanding { readRec with place := .held } s).host.recs[t],
        r.line.toNat = s.sweep.position) := by decide +kernel

/-- The sweep's reads, its last retry, and its two writebacks. -/
theorem witness_SweepTakesOrSkips_completions :
    let p : PhysLine := ⟨300, 12⟩;
    let go (c : Condition) : Instr := .downstreamResponse 0 c zeroLine;
    let read := sweepAt ⟨⟨p, .read⟩, .sweepRead, false⟩ .reading none;
    let retry (n : Nat) := sweepAt ⟨⟨p, .read⟩, .sweepRetry, false⟩ .retrying (some ⟨n, 2⟩);
    let write (mark : Bool) :=
      sweepAt ⟨⟨p, .write zeroLine fullMask mark⟩, .sweepWrite, false⟩ .writingBack none;
    let done (st : PassStats) : State := { up with sweep := { up.sweep with position := 19213, stats := st } };
    let one : PassStats := { zeroPassStats with linesRead := 1 };
    let writes (data : Option LineData) (mark : Bool) (st : PassStats) (r : Option Retry) : State :=
      { read with
        port := up.port
        sweep := { read.sweep with
          state := .writingBack, data := data, retry := r, stats := st
          request := .presented ⟨⟨p, .write zeroLine fullMask mark⟩, .sweepWrite, false⟩ } };
    lands (go .clean) read (done one) = true ∧
    lands (go .poisoned) read (done { one with poisonedFound := 1 }) = true ∧
    lands (go .fixed) read (healthIncrement 300 false .sweep (writes (some zeroLine) false zeroPassStats none))
      = true ∧
    lands (go .failed) read { read with
      port := up.port
      sweep := { read.sweep with
        state := .retrying, retry := some ⟨0, 2⟩, request := .presented ⟨⟨p, .read⟩, .sweepRetry, false⟩ } } = true ∧
    lands (go .clean) (retry 2) (offer (lineEvent .transient .sweep p (some 2)) (done one)) = true ∧
    (let off (s : State) : State := { s with params := { s.params with autoRetire := false } };
      lands (go .failed) (off (retry 2)) (offer (lineEvent .uncorrectable .sweep p (some 2))
        (healthIncrement 300 true .sweep
          (off (writes none true { zeroPassStats with failed := 1 } (some ⟨2, 2⟩))))) = true) ∧
    lands (go .done) (write false) (done { one with fixed := 1 }) = true ∧
    lands (go .done) (write true) (offer (lineEvent .poisonWritten .sweep p none) (done one)) = true := by
  decide +kernel

/-- A journal with one request. -/
def asking (r : JRequest) (s : State) : State := { s with journal := { s.journal with requests := [r] } }

theorem witness_RequestsAreServed :
    (let s := asking (.record ⟨.beginRec, 15625, 0, 0⟩) up;
      s.journal.task = .idle ∧ s.journal.store = .online ∧ s.journal.next < 256 ∧
      (let u : State := { s with journal := { s.journal with task := .append } };
      settled u = true ∧ goes .journalServeRequest s u = true)) ∧
    (let a := asking (.record ⟨.beginRec, 15625, 0, 0⟩) up;
      let s : State := { a with journal := { a.journal with next := 256 } };
      let u : State := { s with journal := { s.journal with
        task := .compact .append .a .erasing, snapshot := some (snapshotOf s.remap) } };
      settled u = true ∧ goes .journalServeRequest s u = true) ∧
    (let u : State := { offline with link := replied .ok [] };
      settled u = true ∧ goes .journalServeRequest (asking .geometry offline) u = true) ∧
    (let u : State := { offline with remap := journalFlags false up.remap, link := replied .ok [] };
      settled u = true ∧ goes .journalServeRequest (asking .detach up) u = true) := by decide +kernel

/-- A record of each kind skipped, and the other requests with the store ONLINE and not. -/
theorem witness_RequestsAreServed_skipped :
    let rec' (k : RecordKind) : JRequest := .record ⟨k, 15625, 0, 0⟩;
    (let s := unstored aborting;
      let w : State := { s with copy := { s.copy with cancelDone := false, stepInFlight := true } };
      let u : State := { s with copy := { s.copy with stepInFlight := true } };
      w.journal.store ≠ .online ∧ lands .journalServeRequest (asking (rec' .cancelRec) w) u = true) ∧
    (let s := unstored (copying (entry .committing 64) .committing 63);
      lands .journalServeRequest (asking (rec' .assignRec) s)
        { offer (spanEvent .retireDone .copy 15625 (some 0) (some 0)) s with
          remap := s.remap.set 0 (some (entry .active 64)), copy := idleCopy false } = true) ∧
    (let s := unstored (copying (entry .copying 0) .beginning 0);
      hostWriteAt s ⟨15625, 0⟩ = false ∧ s.copy.request = .absent ∧
      lands .journalServeRequest (asking (rec' .beginRec) s) { s with
        copy := { s.copy with
          state := .lineRead, request := .presented ⟨⟨⟨15625, 0⟩, .read⟩, .copyRead, false⟩ }
        locks := { s.locks with copy := some ⟨15625, 0⟩ } } = true) ∧
    lands .journalServeRequest (asking .geometry up) (asking .geometry { up with journal := { up.journal with
      task := .compact .geometry .a .erasing, snapshot := some [] } }) = true ∧
    lands .journalServeRequest (asking .detach offline) { offline with link := replied .ok [] } = true ∧
    lands .journalServeRequest (asking .attach offline)
      (asking .attach { offline with journal := { offline.journal with task := .attachReady } }) = true := by
  decide +kernel

/-- A record of the copy under way at the head of the list, its program under way. -/
def appending (k : RecordKind) (s : State) : State :=
  { s with journal := { s.journal with task := .append, requests := [.record ⟨k, 15625, 0, 0⟩] } }

theorem witness_AppendsAreVerified :
    (let c := copying (entry .copying 0) .beginning 0;
      let u : State := { c with
        journal := { c.journal with next := 2 }
        copy := { c.copy with
          state := .lineRead, request := .presented ⟨⟨⟨15625, 0⟩, .read⟩, .copyRead, false⟩ }
        locks := { c.locks with copy := some ⟨15625, 0⟩ } };
      hostWriteAt (appending .beginRec c) ⟨15625, 0⟩ = false ∧ settled u = true ∧
      goes (.pageProgramDone (recordBytes 1 ⟨.beginRec, 15625, 0, 0⟩)) (appending .beginRec c) u = true) ∧
    (let c := copying (entry .committing 64) .committing 63;
      let t := offer (spanEvent .retireDone .copy 15625 (some 0) (some 0)) c;
      let u : State := { t with
        journal := { c.journal with next := 2 }
        remap := c.remap.set 0 (some { entry .active 64 with journaled := true })
        health := removeRetired 15625 c.health
        copy := idleCopy false };
      settled u = true ∧
      goes (.pageProgramDone (recordBytes 1 ⟨.assignRec, 15625, 0, 0⟩)) (appending .assignRec c) u = true) ∧
    (let c := atMemory ⟨⟨⟨262016, 20⟩, .write zeroLine fullMask false⟩, .copyWrite, false⟩
        { aborting with copy := { aborting.copy with cancelDone := false } };
      let u : State := { c with
        journal := { c.journal with next := 2 }, copy := { c.copy with cancelDone := true } };
      settled u = true ∧
      goes (.pageProgramDone (recordBytes 1 ⟨.cancelRec, 15625, 0, 0⟩)) (appending .cancelRec c) u = true) := by
  decide +kernel

/-- A BEGIN record verified after the copy was cancelled, at the last position that leaves room. -/
theorem witness_AppendsAreVerified_cancelled :
    let b : State := { copying (entry .aborting 0) .aborting 0 with
      journal := { up.journal with next := 254 } };
    let c : State := { b with copy := { b.copy with cause := some .command, stepInFlight := true } };
    let s := appending .beginRec c;
    s.copy.state = .aborting ∧ s.journal.store = .online ∧ s.journal.next < 255 ∧
    lands (.pageProgramDone (recordBytes 254 ⟨.beginRec, 15625, 0, 0⟩)) s { b with
      copy := { c.copy with stepInFlight := false }
      journal := { b.journal with
        task := .append, next := 255, requests := [.record ⟨.cancelRec, 15625, 0, 0⟩] } } = true := by
  decide +kernel

/-- A program, an erase and an attach under way. -/
theorem witness_StoreFaultsTakeTheStoreOffline :
    programmed (appending .beginRec up) = some (some .b, 1, recordBytes 1 ⟨.beginRec, 15625, 0, 0⟩) ∧
    ([] : List Byte) ≠ recordBytes 1 ⟨.beginRec, 15625, 0, 0⟩ ∧
    erasing (doing (.compact .append .a .erasing)).journal.task ≠ none ∧
    (doing .attachReady).journal.task = .attachReady := by decide +kernel

/-- A compaction at the largest epoch, with an empty snapshot. -/
theorem witness_StoreFaultsTakeTheStoreOffline_epoch :
    let s : State := { doing (.compact .append .a .erasing) with journal :=
      { (doing (.compact .append .a .erasing)).journal with epoch := 4294967295, snapshot := some [] } };
    s.journal.snapshot = some [] ∧ s.journal.epoch = 4294967295 ∧ answers .sectorEraseDone s = true := by
  decide +kernel

/-- A header of epoch 1, and its half beside an empty one, with start-up's other states. -/
theorem witness_StoreWorkGoesOn :
    (let c : State := doing (.compact .append .a .erasing);
      let s (l : List JRecord) : State := { c with journal := { c.journal with snapshot := some l } };
      settled { s [⟨.assignRec, 40, 1, 0⟩] with
        journal := { (s [⟨.assignRec, 40, 1, 0⟩]).journal with task := .compact .append .a (.snapshot 0) } } = true ∧
      settled { s [] with journal := { (s []).journal with task := .compact .append .a .header } } = true ∧
      (s []).journal.epoch ≠ 4294967295) ∧
    settled (doing .initHeader) = true ∧ settled (doing (.cleanErase .a none)) = true ∧
    (validHeader (headerBytes ⟨1, geo⟩) = some ⟨1, geo⟩ ∧ isEmptyPosition (List.replicate 16 0xFF) = true ∧
      (1 : Nat) ≤ 1 ∧
      settled { doing (.replayRecords 1 []) with geom := geo } = true ∧ settled (doing .initErase) = true) ∧
    (let s : State := { doing (.replayRecords 1 []) with
        mode := .startup, journal := { (doing (.replayRecords 1 [])).journal with store := .offline } };
      s.journal.live ≠ none ∧ s.journal.store = .offline ∧ s.mode = .startup ∧ s.sweep.state = .waiting ∧
      settled up = true ∧ goes (.journalReadDone [List.replicate 16 0xFF]) s up = true) := by decide +kernel

/-- A reconciliation record with another to follow, and the last one. -/
theorem witness_StoreWorkGoesOn_reconciliation :
    let s : State := { unstored active with remap := active.remap.set 1 (some ⟨.active, 40, 1, 64, .auto, false, 0⟩) };
    let a : JRecord := ⟨.assignRec, 15625, 0, 0⟩;
    let b : JRecord := ⟨.assignRec, 40, 1, 0⟩;
    let at' (w : List JRecord) (r : JRecord) (n : Nat) : State := { s with journal := { s.journal with
      task := .reconcile w r, requests := [.attach], next := n } };
    reconcileNeed s.remap [a] = some b ∧ reconcileNeed s.remap [a, b] = none ∧
    reconcileNeed up.remap [⟨.beginRec, 40, 1, 0⟩] = some ⟨.cancelRec, 40, 1, 0⟩ ∧
    lands (.pageProgramDone (recordBytes 1 a)) (at' [] a 1) (at' [a] b 2) = true ∧
    lands (.pageProgramDone (recordBytes 2 b)) (at' [a] b 2) { s with
      journal := { s.journal with store := .online, next := 3 }
      remap := journalFlags true s.remap, link := replied .ok [] } = true := by decide +kernel

/-- Each half live, with the other's epoch below, equal and above; and neither. -/
theorem live_halves :
    LiveHalf (headerBytes ⟨2, geo⟩) (headerBytes ⟨2, geo⟩) (some (.a, ⟨2, geo⟩)) ∧
    LiveHalf (headerBytes ⟨2, geo⟩) (headerBytes ⟨3, geo⟩) (some (.b, ⟨3, geo⟩)) ∧
    LiveHalf [] (List.replicate 16 0xFF) none := by
  have h2 : validHeader (headerBytes ⟨2, geo⟩) = some ⟨2, geo⟩ := by decide +kernel
  have h3 : validHeader (headerBytes ⟨3, geo⟩) = some ⟨3, geo⟩ := by decide +kernel
  refine ⟨.inr (.inl ⟨_, rfl, h2, fun g hg => ?_⟩), .inr (.inr ⟨_, rfl, h3, fun g hg => ?_⟩),
    .inl ⟨rfl, by decide +kernel, by decide +kernel⟩⟩ <;> rw [h2] at hg <;> cases hg <;> decide

/-- The headers read by an attach and by a cleaning; and the headers programmed at start-up and by a cleaning. -/
theorem witness_StoreWorkGoesOn_headers :
    let s (t : Task) : State := { doing t with
      mode := .startup, journal := { (doing t).journal with store := .offline, live := none, epoch := 0 } };
    let reads : Instr := .journalReadDone [headerBytes ⟨2, geo⟩, headerBytes ⟨3, geo⟩];
    let first : Instr := .pageProgramDone (headerBytes ⟨1, defaultGeometry⟩);
    let done : State := { up with journal := { up.journal with live := some .a, epoch := 1, next := 1 } };
    lands reads (doing (.attachHeaders none)) { up with journal := { up.journal with
      task := .compact .attach .a .erasing, epoch := 3, snapshot := some [] } } = true ∧
    lands reads (s (.cleanHeaders none)) (let t := s (.cleanErase .a (some .b));
      { t with journal := { t.journal with live := some .b, epoch := 3 } }) = true ∧
    lands first (s .initHeader) done = true ∧
    lands first (s .cleanHeader) { done with link := replied .ok [] } = true ∧
    lands .sectorEraseDone (s (.cleanErase .a none)) (s .cleanHeader) = true := by decide +kernel

/-- A compaction of an append, a geometry write or an attach, at a stage, with its snapshot. -/
def compacting (c : CompactCause) (st : CompactStep) (l : List JRecord) (r : JRequest) (s : State) : State :=
  { s with journal := { s.journal with task := .compact c .a st, snapshot := some l, requests := [r] } }

/-- The first and the last snapshot record verified, and the header by each cause. -/
theorem witness_StoreWorkGoesOn_compaction :
    let l : List JRecord := [⟨.assignRec, 40, 1, 0⟩, ⟨.assignRec, 41, 2, 3⟩];
    let geometry := compacting .geometry (.snapshot 1) l .geometry up;
    let compacted (n : Nat) (s : State) : State :=
      { offer { kind := .journalCompacted, source := .journal, span := none, offset := some 0, slot := none
                value := some n } s with
        journal := { s.journal with live := some .a, epoch := 3, next := n + 1, snapshot := none } };
    let header : Instr := .pageProgramDone (headerBytes ⟨3, geo⟩);
    lands (.pageProgramDone (recordBytes 1 ⟨.assignRec, 40, 1, 0⟩)) (compacting .geometry (.snapshot 0) l .geometry up)
      geometry = true ∧
    lands (.pageProgramDone (recordBytes 2 ⟨.assignRec, 41, 2, 3⟩)) geometry
      (compacting .geometry .header l .geometry up) = true ∧
    lands header (compacting .geometry .header [] .geometry up) { compacted 0 up with link := replied .ok [] } = true ∧
    (let s := appending .beginRec (copying (entry .copying 0) .beginning 0);
      lands header (compacting .append .header l (.record ⟨.beginRec, 15625, 0, 0⟩) s) (compacted 2 s) = true) ∧
    (let s := unstored up;
      lands header (compacting .attach .header [] .attach s) { compacted 0 up with link := replied .ok [] } = true) ∧
    (let s : State := unstored active;
      let c := compacting .attach .header [] .attach s;
      let v := compacted 0 c;
      reconcileNeed c.remap [] = some ⟨.assignRec, 15625, 0, 0⟩ ∧
      lands header c { v with journal := { v.journal with task := .reconcile [] ⟨.assignRec, 15625, 0, 0⟩ } } = true) := by
  decide +kernel

/-- Position 255 with the largest fields, and the largest epoch. -/
theorem witness_RecordsReadBack :
    (255 : Nat) < 256 ∧ 4194303 < 4194304 ∧
    goodRecord 255 (recordBytes 255 ⟨.assignRec, 4194303, 127, 64⟩) = some ⟨.assignRec, 4194303, 127, 64⟩ ∧
    geo.valid = true ∧ 4294967295 ≤ 4294967295 ∧
    validHeader (headerBytes ⟨4294967295, geo⟩) = some ⟨4294967295, geo⟩ := by decide +kernel

/-- Replay at a position. -/
def replaying (pos : Nat) (l : List OpenPair) (s : State) : State :=
  { s with
    mode := .startup
    journal := { s.journal with task := .replayRecords pos l, store := .offline } }

/-- The records of replay, at positions 1 and 254: an ASSIGN restored, and one refused by each check; a BEGIN that
joins, replaces and overflows; a CANCEL; a torn record. -/
theorem witness_ReplayReadsRecords :
    let read (pos : Nat) (r : JRecord) : Instr := .journalReadDone [recordBytes pos r];
    let conflict (r : JRecord) (cause : Nat) (s : State) : State := offer (conflictEvent r.span r.slot cause) s;
    let refused (r : JRecord) (cause : Nat) (s : State) : Bool :=
      lands (read 1 r) (replaying 1 [] s) (replaying 2 [] (conflict r cause s));
    let eight : List OpenPair := (List.range 8).map (fun k => ⟨k, k⟩);
    (let b : Binding := ⟨.active, 40, 127, 64, .restored, true, 255⟩;
      lands (read 254 ⟨.assignRec, 40, 127, 255⟩) (replaying 254 [⟨40, 3⟩] active)
        (replaying 255 [] { active with remap := active.remap.set 1 (some b) }) = true) ∧
    (refused ⟨.assignRec, 262016, 0, 0⟩ 1 up ∧ refused ⟨.assignRec, 40, 128, 0⟩ 2 up ∧
      refused ⟨.assignRec, 15625, 0, 0⟩ 3 active ∧ refused ⟨.assignRec, 40, 0, 0⟩ 4 active) = true ∧
    lands (read 1 ⟨.beginRec, 7, 9, 0⟩) (replaying 1 eight up)
      (replaying 2 (eight.take 7 ++ [⟨7, 9⟩]) up) = true ∧
    lands (read 1 ⟨.beginRec, 8, 9, 0⟩) (replaying 1 (eight.take 7) up)
      (replaying 2 (eight.take 7 ++ [⟨8, 9⟩]) up) = true ∧
    lands (read 1 ⟨.beginRec, 8, 9, 0⟩) (replaying 1 eight up)
      (replaying 2 eight (conflict ⟨.beginRec, 8, 9, 0⟩ 5 up)) = true ∧
    lands (read 1 ⟨.cancelRec, 7, 7, 0⟩) (replaying 1 eight up) (replaying 2 (eight.take 7) up) = true ∧
    (let torn := recordBytes 2 ⟨.cancelRec, 7, 7, 0⟩;
      isEmptyPosition torn = false ∧ goodRecord 1 torn = none ∧
      lands (.journalReadDone [torn]) (replaying 1 [] up)
        (replaying 2 [] (offer (journalEvent .recordTorn (some .b) 1) up)) = true) := by decide +kernel

/-- The end of replay at a torn position 255; a span for each check of an open pair; and a damaged header. -/
theorem witness_ReplayReadsRecords_end :
    (let torn := recordBytes 2 ⟨.cancelRec, 7, 7, 0⟩;
      let s := replaying 255 [] up;
      goodRecord 255 torn = none ∧ s.journal.live ≠ none ∧ s.sweep.state = .waiting ∧
      (after (.journalReadDone [torn]) s).journal.next = 256) ∧
    (up.geom.usable 262016 = false ∧ up.geom.usable 262015 = true ∧
      (∃ q ∈ bound.retire, q.span = 300) ∧ (∃ i : Fin 128, ∃ b ∈ bound.remap[i], b.span = 15625) ∧
      (∀ q ∈ bound.retire, q.span ≠ 77) ∧ (∀ i : Fin 128, ∀ b ∈ bound.remap[i], b.span ≠ 77) ∧
      bound.retire.length < 8) ∧
    (let s (t : Task) : State := { doing t with
        mode := .startup, journal := { (doing t).journal with store := .offline, live := none } };
      let told := offer (journalEvent .recordTorn (some .a) 0) (s .initErase);
      damagedHeader (List.replicate 16 0) = true ∧
      lands (.journalReadDone [List.replicate 16 0, List.replicate 16 0xFF]) (s (.replayHeaders none)) told = true) := by
  decide +kernel

/-! ### Further witnesses, clause by clause -/

/-- An ACTIVE entry and a queued span of FIND_SPAN, the queue's last position, and a span in no table; with the
bytes of Table 11-7 for them. -/
theorem witness_TableReadsAnswer_layouts :
    let s : State := { active with
      retire := (List.range 8).map (fun k => ⟨k, .command⟩)
      health := active.health.set 63 (some ⟨15625, false, 16, 1, 2, 0x0304, true⟩) };
    (∃ b ∈ s.remap[0], b.span = 15625) ∧ (∀ k : Fin 128, ∀ c ∈ s.remap[k], c.span = 15625 → k = 0) ∧
    (∃ f ∈ s.health[63], f.span = 15625) ∧ (∀ k : Fin 64, ∀ g ∈ s.health[k], g.span = 15625 → k = 63) ∧
    s.retire = (List.range 7).map (fun k => ⟨k, .command⟩) ++ ⟨7, .command⟩ :: [] ∧
    goes (.findSpan (leBytes 3 15625)) s (answer .ok
      [0, 0x44, 0x09, 0x3D, 0x00, 0, 64, 0, 0, 63, 0x05, 0x09, 0x3D, 0x00, 16, 1, 2, 0, 0x04, 0x03] s) = true ∧
    goes (.findSpan (leBytes 3 7)) s (answer .ok
      [0xFF, 0, 0xFF, 0xFF, 0xFF, 0xFF, 0, 0, 0x18, 0xFF, 0, 0xFF, 0xFF, 0xFF, 0, 0, 0, 0, 0, 0] s) = true := by
  decide +kernel

/-- The largest position with an accelerated sweep that writes back, in the bytes of Table 11-7. -/
theorem witness_ParamAndStatsReadsAnswer_report :
    let s : State := { up with sweep := { up.sweep with
      state := .writingBack, position := 268435455, accelerated := true, pass := 0x0102 } };
    s.sweep.position < 268435456 ∧
    (after (.readStats [1]) s).link.response.map (fun r => r.payload.take 8)
      = some [0xFF, 0xFF, 0xFF, 0xCF, 0x02, 0x01, 64, 0] := by decide +kernel

/-- A MEMORY_ERROR of the port in the bytes of Table 11-8. -/
theorem test_event_record :
    (after (.readEvents [2]) (offer (lineEvent .memoryError .port ⟨15625, 3⟩ (some 1)) up)).link.response
      = some ⟨.ok, [1, 0, 0, 0, 0xD4, 0x09, 0x3D, 0x00, 3, 0xFF, 1, 0, 0, 0]⟩ := by decide +kernel

/-- Both classes presented below the share: a dual write, and a ladder's first retry; and the retries of the copy
engine and of the sweep, first issued and reissued. -/
theorem witness_ArbiterSharesGrants_counts :
    (let s := queued { writeRec with line := line 3 } copyWaits;
      bgPresented s = true ∧ s.port.share < s.params.bgShare ∧ s.host.headWaits = false ∧
      (resolve s.geom s.remap true (line 3)).second = some ⟨262016, 3⟩ ∧
      s.locks.lockedAt (resolve s.geom s.remap true (line 3)) = false) ∧
    (let s : State := { copyWaits with host := { copyWaits.host with
        ladders := copyWaits.host.ladders.set 3 (some ⟨4, ⟨3, 3⟩, 0, 2⟩)
        followOns := [⟨⟨⟨3, 3⟩, .read⟩, .ladderRetry 3 4 0, false⟩] } };
      bgPresented s = true ∧ s.host.ladders[3] = some ⟨4, ⟨3, 3⟩, 0, 2⟩ ∧
      (after .arbiterGrant s).host.ladders[3] = some ⟨4, ⟨3, 3⟩, 1, 2⟩) ∧
    (let s (re : Bool) : State := { copyWaits with copy := { copyWaits.copy with
        state := .lineRetry, retry := some ⟨1, 2⟩
        request := .presented ⟨⟨⟨15625, 20⟩, .read⟩, .copyRetry, re⟩ } };
      fgPresented (s false) = false ∧ (after .arbiterGrant (s false)).copy.retry = some ⟨2, 2⟩ ∧
      (after .arbiterGrant (s true)).copy.retry = some ⟨1, 2⟩) ∧
    (let s (re : Bool) : State := { sweepWaits with sweep := { sweepWaits.sweep with
        state := .retrying, retry := some ⟨1, 2⟩
        request := .presented ⟨⟨⟨300, 12⟩, .read⟩, .sweepRetry, re⟩ } };
      fgPresented (s false) = false ∧ (after .arbiterGrant (s false)).sweep.retry = some ⟨2, 2⟩ ∧
      (after .arbiterGrant (s true)).sweep.retry = some ⟨1, 2⟩) := by decide +kernel

/-- A host read's second error in each state of the copy engine, with the journal at work, full and OFFLINE. -/
theorem witness_SecondErrorsFence_copy :
    let i : Issue := ⟨⟨⟨300, 3⟩, .read⟩, .hostRead 4 0, true⟩;
    let s (st : CopyState) (g : Stage) (rq : BgRequest) : State :=
      let c := outstanding readRec (atMemory i (copying (entry g 20) st 20))
      { c with copy := { c.copy with request := rq } };
    let fence (u : State) : State := after (.downstreamResponse 0 .error zeroLine) u;
    i.origin.isCopy = false ∧
    (let u := working (s .lineRead .copying .absent);
      u.copy.cancelDone = false ∧ u.journal.TakesRecords ∧ u.hold = [] ∧ u.host.headWaits = false ∧
      (fence u).journal = u.journal.asked ⟨.cancelRec, 15625, 0, 0⟩) ∧
    (let u := s .lineRead .copying .absent;
      let f : State := { u with journal := { u.journal with next := 256 } };
      u.journal.TakesRecords ∧ (fence u).journal.task = .append ∧ f.journal.store = .online ∧
      f.journal.task = .idle ∧ f.journal.requests = [] ∧
      (fence f).journal.task = .compact .append .a .erasing) ∧
    (let u := unstored (s .lineRead .copying .absent);
      let w : State := { u with port := { u.port with
        tags := u.port.tags.set 63 (.inUse ⟨⟨⟨262016, 3⟩, .write zeroLine 1 false⟩, .orphan, false⟩) } };
      serveDue u = false ∧ (fence u).remap[0] = none ∧
      spanWriteInFlight w 262016 = true ∧ (fence w).copy.cancelDone = true) ∧
    (fence (s .beginning .copying .absent)).copy.stepInFlight = true ∧
    (fence (s .lineWrite .copying .atMemory)).copy.cause = some .fence ∧
    (fence (s .committing .committing .absent)).copy.state = .committing ∧
    (let a := s .aborting .aborting .atMemory;
      let u : State := { a with copy := { a.copy with stepInFlight := true, cause := some .command } };
      (fence u).copy = u.copy) ∧
    (let w : Issue := ⟨⟨⟨15625, 3⟩, .write zeroLine fullMask false⟩, .hostWrite 4 .slot 0, true⟩;
      let r : HostRec := { writeRec with sourceHalf := some .pending, slotHalf := some .pending };
      let u := outstanding r (atMemory w up);
      u.mode ≠ .fenced ∧ u.copy.state = .idle ∧ serveDue u = false ∧
      (fence u).host = (outstanding { r with slotHalf := some .failed } up).host) := by decide +kernel

/-- Store faults of each kind: an append of each record, a compaction's last record at the largest epoch, an attach,
and start-up; with their events. -/
theorem witness_StoreFaultsTakeTheStoreOffline_ends :
    let told (v : Nat) (h : Option Nat) (s : State) : State := offer
      { kind := .storeFault, source := .journal, span := none, offset := h, slot := none, value := some v } s;
    (let c := copying (entry .copying 0) .beginning 0;
      hostWriteAt c ⟨15625, 0⟩ = false ∧
      lands (.pageProgramDone []) (appending .beginRec c) (let t := told 17 (some 1) (unstored c);
        { t with
          copy := { t.copy with
            state := .lineRead, request := .presented ⟨⟨⟨15625, 0⟩, .read⟩, .copyRead, false⟩ }
          locks := { t.locks with copy := some ⟨15625, 0⟩ } }) = true) ∧
    (let c := copying (entry .committing 64) .committing 63;
      lands .programLimitExpiry (appending .assignRec c)
        { offer (spanEvent .retireDone .copy 15625 (some 0) (some 0)) (told 1 (some 1) (unstored up)) with
          remap := c.remap.set 0 (some (entry .active 64)) } = true) ∧
    (let c : State := { aborting with copy := { aborting.copy with cancelDone := false, stepInFlight := true } };
      lands .programLimitExpiry (appending .cancelRec c) (let t := told 1 (some 1) (unstored c);
        { t with copy := { t.copy with cancelDone := true } }) = true) ∧
    (let r : JRecord := ⟨.assignRec, 40, 1, 0⟩;
      let s := compacting .geometry (.snapshot 1) [r, r] .geometry
        { up with journal := { up.journal with epoch := 4294967295 } };
      lands (.pageProgramDone (recordBytes 2 r)) s { told 4 (some 0) up with
        journal := { offline.journal with epoch := 4294967295 }, link := replied .ok [] } = true) ∧
    (let s := asking .attach { offline with journal := { offline.journal with task := .attachReady } };
      lands .attachReadyExpiry s { told 6 none offline with link := replied .ok [] } = true) ∧
    (let s (t : Task) : State := { doing t with
        mode := .startup, journal := { (doing t).journal with store := .offline, live := none } };
      let u (v : Nat) (h : Nat) : State := { told v (some h) up with journal := { offline.journal with live := none } };
      lands .eraseLimitExpiry (s .initErase) (u 5 0) = true ∧
      lands .eraseLimitExpiry (s (.cleanErase .b none)) { u 5 1 with link := replied .ok [] } = true ∧
      lands (.pageProgramDone []) (s .cleanHeader) { u 21 0 with link := replied .ok [] } = true) := by
  decide +kernel

/-- A good record of each kind at position 255, after which replay has ended. -/
theorem witness_ReplayReadsRecords_last :
    let read (r : JRecord) (l : List OpenPair) : State :=
      after (.journalReadDone [recordBytes 255 r]) (replaying 255 l up);
    (let s := read ⟨.assignRec, 40, 1, 0⟩ [⟨40, 1⟩];
      s.remap[0] = some ⟨.active, 40, 1, 64, .restored, true, 0⟩ ∧ s.retire = [] ∧ s.journal.next = 256 ∧
      s.mode = .online ∧ s.journal.store = .online) ∧
    (read ⟨.beginRec, 40, 1, 0⟩ []).remap[0] = some ⟨.copying, 40, 0, 0, .resumed, false, 0⟩ ∧
    (read ⟨.cancelRec, 40, 1, 0⟩ [⟨40, 1⟩]).events.records = [] ∧
    isEmptyPosition (recordBytes 255 ⟨.cancelRec, 40, 1, 0⟩) = false := by decide +kernel

/-- HOLD low with STORE_EN high and low, and what HOLD high answers. -/
theorem witness_FullResetWithoutHold :
    answers (.fullReset true true 3) up = true ∧ (after (.fullReset false true 3) up).sweep.timer = none ∧
    (after (.fullReset false false 3) up).sweep.timer = some 64 := by decide +kernel

end Sys2Proof.Tests
end

namespace Sys2Proof.Machine

/-! ## Full reset, start-up, and what FENCED keeps -/

/-! ### Full reset and start-up -/

/-- Settles O3: the reset state is `State.fresh` with the two inputs that R1 leaves alone. -/
theorem fullResetIntoHold : Obligations.FullResetIntoHold := fun _ _ _ => ⟨0, rfl⟩

/-- With STORE_EN high, replay begins and the headers are read (R1, R135). -/
theorem fullResetState_of_store (addr : BitVec 2) (s : State) :
    fullResetState false true addr s =
      { fullResetState true true addr s with
        pins := { hold := false, storeEn := true, addr := addr, hostReset := s.pins.hostReset }
        journal := { freshJournal true with task := .replayHeaders none } } := rfl

/-- With STORE_EN low, replay ends at once and the bridge is ONLINE (R1, R3, R135). -/
theorem fullResetState_of_no_store (addr : BitVec 2) (s : State) :
    fullResetState false false addr s =
      { fullResetState true false addr s with
        mode := .online
        pins := { hold := false, storeEn := false, addr := addr, hostReset := s.pins.hostReset }
        sweep := { freshSweep with timer := some 64 }
        journal := { freshJournal false with task := .idle } } := rfl

/-- Settles O4, by the two reset states. -/
theorem fullResetWithoutHold : Obligations.FullResetWithoutHold := by
  intro s addr
  refine ⟨⟨_, congrArg Host.Outcome.next (fullResetState_of_store addr s), rfl, rfl, rfl, rfl⟩,
    ⟨_, congrArg Host.Outcome.next (fullResetState_of_no_store addr s), rfl, rfl, rfl, rfl, rfl, ?_⟩,
    fun en => ⟨_, rfl, ?_⟩⟩
  · simp [accept, fullResetState, State.fresh, freshHost]
  · cases en
    · exact congrArg Host.Outcome.next (fullResetState_of_no_store addr s)
    · exact congrArg Host.Outcome.next (fullResetState_of_store addr s)

/-- Settles O5: every table and queue is empty at reset, so what is said of their entries holds of none. -/
theorem resetMeetsInvariants : Obligations.ResetMeetsInvariants := by
  have table : ∀ i : Fin 128, State.reset.remap[i] = none := by simp [State.reset, State.fresh]
  have health : ∀ i : Fin 64, State.reset.health[i] = none := by simp [State.reset, State.fresh]
  have events : State.reset.events.Sound :=
    ⟨Nat.zero_le _, Nat.zero_le _, fun _ h => absurd h (Nat.not_lt_zero _)⟩
  have limits : WithinLimits State.reset := by
    refine ⟨by decide, by decide, by decide, ⟨?_, ?_⟩, by constructor <;> decide, by decide, by decide, ?_⟩
    · simp [health]
    · simp [health]
    · simp [table]
  have bound : BoundOnce State.reset :=
    { entries := by simp [table]
      usable := by simp [table]
      slots := by simp [table]
      queue := List.nodup_nil
      queueUsable := by simp [State.reset, State.fresh]
      apart := by simp [State.reset, State.fresh]
      oneCopy := by simp [table]
      startMode := fun _ => by decide
      startQueue := fun _ => rfl
      startTable := fun _ => table }
  exact ⟨events, limits, bound, by decide +kernel, by decide⟩

/-- Replay begins on a store that is not DISABLED by reading the headers (R135). -/
theorem beginReplay_of_store {s : State} (h : s.journal.store ≠ .disabled) :
    beginReplay s = setTask (.replayHeaders none) s := if_neg h

/-- Start-up complete in STARTUP with a WAITING sweep: ONLINE, and the sweep's timer runs (R3). -/
theorem startupComplete_of_waiting {s : State} (hm : s.mode = .startup) (hw : s.sweep.state = .waiting) :
    startupComplete s = startTimer (s.setMode .online) := by
  simp [startupComplete, hm, hw]

/-- With the store DISABLED replay ends where it begins (R135). -/
theorem beginReplay_of_disabled {s : State} (h : s.journal.store = .disabled) :
    beginReplay s = startupComplete (setTask .idle s) := by
  simp [beginReplay, h, endReplay, setTask]

/-- Settles O31. Both commands find the link free and the controller in HOLD, so each runs its body. -/
theorem startsLeaveHold : Obligations.StartsLeaveHold := by
  intro s hb hh hm
  have hin : inHold s = true := by simp [inHold, hh]
  have start : exec (.start []) s = .next (startBody (takeFrame s)) :=
    congrArg Host.Outcome.next (takeCommand_taken hb hin rfl (Nat.zero_le _))
  have clean : exec (.cleanStart []) s = .next (cleanBody (takeFrame s)) :=
    congrArg Host.Outcome.next (takeCommand_taken hb hin rfl (Nat.zero_le _))
  refine ⟨fun hs u hu hu' => ?_, fun hs => ?_, fun hs hw u hu hu' => ?_⟩
  · have : startBody (takeFrame s) = settle u := by
      rw [hu, startBody, beginReplay_of_store (s := takeFrame s) hs]; rfl
    rw [start, this, settle_of_settled hu']
  · rw [clean, cleanBody, if_neg (show (takeFrame s).journal.store ≠ .disabled from hs)]; rfl
  · have done : answer .ok [] (startupComplete (setTask .idle (takeFrame s))) = u := by
      rw [hu, startupComplete_of_waiting (s := setTask .idle (takeFrame s)) hm hw]; rfl
    have hd : (takeFrame s).journal.store = .disabled := hs
    constructor
    · rw [start, startBody, beginReplay_of_disabled hd, done, settle_of_settled hu']
    · rw [clean, cleanBody, if_pos hd, endCleaning, done, settle_of_settled hu']

/-! ### What FENCED keeps -/

/-- No act of the part leaves FENCED (R4). -/
theorem Act.keeps_fenced {u v : State} (h : Act u v) (hu : u.mode = .fenced) : v.mode = .fenced := by
  cases h with
  | fence => rfl
  | online hm _ => rw [hm] at hu; cases hu
  | _ => exact hu

/-- Settles O10: every command but a full reset is a chain of acts, and no act leaves FENCED. -/
theorem fencedUntilFullReset : Obligations.FencedUntilFullReset :=
  fun _ _ _ hc hm hx => (acts_of_exec hc hx).keeps (fun _ _ => Act.keeps_fenced) hm

/-- `t` has sent, since `s`, responses marked by the fence: all with CONTAIN if `s` was FENCED, and none if `t`
is not (R5). -/
def SentByFence (s t : State) : Prop :=
  ∃ new : List UpResponse, t.host.sent = s.host.sent ++ new ∧
    (s.mode = .fenced → ∀ r ∈ new, r.contained = true) ∧
    (t.mode ≠ .fenced → ∀ r ∈ new, r.contained = false)

theorem SentByFence.refl (s : State) : SentByFence s s := ⟨[], by simp, by simp, by simp⟩

/-- An act sends nothing, or one response marked by the mode that it is sent in (R5). -/
theorem Act.sends {u v : State} (h : Act u v) :
    v.host.sent = u.host.sent ∨ ∃ r, v = sendUp r u ∧ r.contained = contain u := by
  cases h with
  | send r hr => exact .inr ⟨r, rfl, hr⟩
  | host _ hs => exact .inl hs
  | _ => exact .inl rfl

/-- One act keeps the marks: it does not leave FENCED, and what it sends is marked by the mode. -/
theorem SentByFence.act {s u v : State} (hm : s.mode = .fenced → u.mode = .fenced) (ha : Act u v)
    (h : SentByFence s u) : SentByFence s v := by
  obtain ⟨new, hn, hf, ho⟩ := h
  have hu : v.mode ≠ .fenced → u.mode ≠ .fenced := fun hv hu => hv (ha.keeps_fenced hu)
  rcases ha.sends with hs | ⟨r, rfl, hr⟩
  · exact ⟨new, hs.trans hn, hf, fun hv => ho (hu hv)⟩
  · refine ⟨new ++ [r], by simp [sendUp, hn], fun hs x hx => ?_, fun hv x hx => ?_⟩ <;>
      rcases List.mem_append.1 hx with hx | hx
    · exact hf hs x hx
    · rw [List.mem_singleton.1 hx, hr]; simp [contain, hm hs]
    · exact ho (hu hv) x hx
    · rw [List.mem_singleton.1 hx, hr]; simp [contain, hu hv]

/-- Settles O12, along the chain of acts of a command. -/
theorem containMarksFollowTheFence : Obligations.ContainMarksFollowTheFence := by
  intro c s t hc hx
  refine ((acts_of_exec hc hx).keeps (P := fun u => (s.mode = .fenced → u.mode = .fenced) ∧ SentByFence s u)
    (fun u v ha h => ?_) ⟨id, SentByFence.refl s⟩).2
  exact ⟨fun hs => ha.keeps_fenced (h.1 hs), h.2.act h.1 ha⟩

end Sys2Proof.Machine

namespace Sys2Proof.Machine

/-! ## What can follow in FENCED

A FENCED bridge starts no copy and no swept line. So what can still follow in a step is a short list of acts
(`FencedAct`), and what lasts is said once for every chain of them. -/

variable {s t u v : State}

/-! ### Events offered -/

/-- Offering an event takes no record from the queue (R145, R146). -/
theorem offerEvent_records (pass : BitVec 16) (e : Event) (q : Events) :
    q.records <+: (offerEvent pass e q).records := by
  have lose : ∀ q : Events, q.records <+: (storeOrLose pass e q).records := by
    intro q; unfold storeOrLose; split
    · exact List.prefix_append _ _
    · exact List.prefix_refl _
  have report : ∀ q : Events, q.records <+: (reportLost pass q).records := by
    intro q; unfold reportLost; split
    · exact List.prefix_append _ _
    · exact List.prefix_refl _
  exact (report { q with flags := setFlag q.flags (categoryBit e.kind) }).trans (lose _)

/-! ### Requests moved between the host port's lists -/

/-- The host port `h` is `g` but for the order of its request items and the places of its records: what the
release of a line and the diversion of a head do to it (R59, R60). -/
structure HostPort.Requeued (g h : HostPort) : Prop where
  followOns : h.followOns = g.followOns
  ladders : h.ladders = g.ladders
  era : h.era = g.era
  free : ∀ tag : HostTag, g.recs[tag] = none → h.recs[tag] = none
  taken : ∀ (tag : HostTag) (r : HostRec), g.recs[tag] = some r → ∃ p, h.recs[tag] = some { r with place := p }

theorem HostPort.Requeued.refl (g : HostPort) : g.Requeued g :=
  ⟨rfl, rfl, rfl, fun _ => id, fun _ r h => ⟨r.place, h⟩⟩

theorem HostPort.Requeued.trans {f g h : HostPort} (a : f.Requeued g) (b : g.Requeued h) : f.Requeued h where
  followOns := b.followOns.trans a.followOns
  ladders := b.ladders.trans a.ladders
  era := b.era.trans a.era
  free tag hf := b.free tag (a.free tag hf)
  taken tag r hf := by
    obtain ⟨p, hp⟩ := a.taken tag r hf
    obtain ⟨q, hq⟩ := b.taken tag _ hp
    exact ⟨q, hq⟩

/-- Tags given a place, with other request items and another mark on the head. -/
theorem HostPort.Requeued.place (g : HostPort) (tags : List HostTag) (p : Place) (l : List HostTag) (w : Bool) :
    g.Requeued { g with requests := l, headWaits := w, recs := placeAll tags p g.recs } where
  followOns := rfl
  ladders := rfl
  era := rfl
  free tag hg := by simp only [placeAll_getElem, hg]; simp
  taken tag r hg := by
    simp only [placeAll_getElem, hg]
    by_cases hm : tag ∈ tags
    · exact ⟨p, by simp [hm]⟩
    · exact ⟨r.place, by simp [hm]⟩

theorem releaseLine_requeued (n : Nat) (s : State) : s.host.Requeued (releaseLine n s).host :=
  .place _ _ _ _ _

theorem divertHead_requeued (s : State) : s.host.Requeued (divertHead s).host := by
  unfold divertHead; dsimp only; split
  · exact .place _ _ _ _ _
  · exact .place _ [] .held _ _

theorem recheckHead_requeued (s : State) : s.host.Requeued (recheckHead s).host := by
  unfold recheckHead; split
  · split
    · exact divertHead_requeued s
    · exact .place _ [] .held _ _
  · exact .refl _

theorem removeHolder_requeued (k : Holder) (s : State) : s.host.Requeued (removeHolder k s).host := by
  unfold removeHolder; split
  · exact .refl _
  · dsimp only; split
    · exact .refl _
    · split
      · rename_i n _
        exact (releaseLine_requeued n (s.setLocks (s.locks.setLine k none))).trans (recheckHead_requeued _)
      · exact recheckHead_requeued (s.setLocks (s.locks.setLine k none))

/-- The state with its host requests moved, a holder's lock gone and the holds counted (R55, R60). -/
def State.left (s : State) (k : Holder) (H : HostPort) (L : List HostTag) (T : Stats) : State :=
  (((s.setHost H).setLocks (s.locks.setLine k none)).setHold L).setStats T

section

variable (k : Holder) (H : HostPort) (L : List HostTag) (T : Stats)

@[simp] theorem State.left_mode : (s.left k H L T).mode = s.mode := rfl
@[simp] theorem State.left_port : (s.left k H L T).port = s.port := rfl
@[simp] theorem State.left_geom : (s.left k H L T).geom = s.geom := rfl
@[simp] theorem State.left_remap : (s.left k H L T).remap = s.remap := rfl
@[simp] theorem State.left_host : (s.left k H L T).host = H := rfl
@[simp] theorem State.left_locks : (s.left k H L T).locks = s.locks.setLine k none := rfl

end

/-- What leaving a line changes: its lock, and where host requests wait (R55, R60). -/
theorem removeHolder_moves (k : Holder) (s : State) : ∃ H L T, s.host.Requeued H ∧
    removeHolder k s = s.left k H L T := by
  obtain ⟨H, K, L, T, h⟩ := removeHolder_frame k s
  have hr := removeHolder_requeued k s
  have hl := removeHolder_locks k s
  rw [h] at hr hl
  exact ⟨H, L, T, hr, by rw [h, State.left, ← hl]; rfl⟩

/-! ### What can follow in FENCED -/

/-- One act of what follows the failure of a request: a FENCED bridge starts no copy and no line, so the port, the
Retirement Queue and the sweep's line stay, no flag is cleared, and COPY is taken only by a copy whose BEGIN
record is reported. -/
inductive FencedAct : State → State → Prop
  | offer (s : State) (e : Event) : FencedAct s (offer e s)
  | link (s : State) (v : Link) : FencedAct s (s.setLink v)
  | stats (s : State) (v : Stats) : FencedAct s (s.setStats v)
  | hold (s : State) (v : List HostTag) : FencedAct s (s.setHold v)
  | health (s : State) (v : Health) : FencedAct s (s.setHealth v)
  | remap (s : State) (v : Remap) : FencedAct s (s.setRemap v)
  | journal (s : State) (v : Journal) : FencedAct s (s.setJournal v)
  | copy (s : State) (v : CopyCtx)
      (h : v.state = s.copy.state ∨ v.state = .idle ∨ s.copy.state = .beginning) : FencedAct s (s.setCopy v)
  | sweepRead (s : State) (r : BgRequest) (h : s.sweep.state = .reading) :
      FencedAct s (s.setSweep { s.sweep with request := r })
  | unlock (s : State) (k : Holder) : FencedAct s (s.setLocks (s.locks.setLine k none))
  | lockCopy (s : State) (p : PhysLine) (h : s.copy.state = .lineRead) :
      FencedAct s (s.setLocks (s.locks.setLine .copy (some p)))
  | host (s : State) (v : HostPort) (hl : ∀ k : Fin 4, s.host.ladders[k] = none → v.ladders[k] = none)
      (hr : ∀ tag : HostTag, s.host.recs[tag] = none → v.recs[tag] = none) : FencedAct s (s.setHost v)

/-- A chain of such acts. -/
def FencedActs : State → State → Prop := Relation.ReflTransGen FencedAct

theorem FencedActs.refl : FencedActs s s := Relation.ReflTransGen.refl
theorem FencedActs.tail (h : FencedActs s t) (ha : FencedAct t u) : FencedActs s u :=
  Relation.ReflTransGen.tail h ha
theorem FencedActs.trans (h : FencedActs s t) (ht : FencedActs t u) : FencedActs s u :=
  Relation.ReflTransGen.trans h ht

theorem FencedActs.ite {c : Prop} [Decidable c] (h1 : FencedActs s t) (h2 : FencedActs s u) :
    FencedActs s (if c then t else u) := by split <;> assumption

/-- A property that every such act keeps is kept by every chain. -/
theorem FencedActs.keeps {P : State → Prop} (h : ∀ u v, FencedAct u v → P u → P v) (hst : FencedActs s t)
    (hs : P s) : P t := by
  unfold FencedActs at hst
  induction hst with
  | refl => exact hs
  | tail _ ha ih => exact h _ _ ha ih

/-- What lasts from `s` to `t` once the bridge is FENCED: the mode, the port and the Retirement Queue, every record
of the Event Queue and every flag. -/
structure FenceLasts (s t : State) : Prop where
  mode : t.mode = s.mode
  port : t.port = s.port
  retire : t.retire = s.retire
  records : s.events.records <+: t.events.records
  flags : ∀ k, s.events.flags.getLsbD k = true → t.events.flags.getLsbD k = true

theorem FencedActs.lasts (h : FencedActs s t) : FenceLasts s t := by
  refine h.keeps (P := FenceLasts s) (fun u v ha hu => ?_) ⟨rfl, rfl, rfl, List.prefix_refl _, fun _ => id⟩
  obtain ⟨hm, hp, hr, hq, hf⟩ := hu
  cases ha with
  | offer e =>
    exact ⟨hm, hp, hr, hq.trans (offerEvent_records _ _ _), fun k hk => offer_keeps_flag e u k (hf k hk)⟩
  | _ => exact ⟨hm, hp, hr, hq, hf⟩

theorem FencedActs.mode (h : FencedActs s t) : t.mode = s.mode := h.lasts.mode

/-- The sweep stays but for its request, and that too outside READING. -/
theorem FencedActs.sweep (h : FencedActs s t) :
    ∃ r, t.sweep = { s.sweep with request := r } ∧ (s.sweep.state ≠ .reading → r = s.sweep.request) := by
  refine h.keeps (P := fun u => ∃ r, u.sweep = { s.sweep with request := r } ∧
    (s.sweep.state ≠ .reading → r = s.sweep.request)) (fun u v ha hu => ?_) ⟨_, rfl, fun _ => rfl⟩
  cases ha with
  | sweepRead r hr =>
    obtain ⟨q, hq, -⟩ := hu
    exact ⟨r, by simp [hq], fun hn => absurd (by rw [hq] at hr; exact hr) hn⟩
  | _ => exact hu

/-- A holder other than COPY that holds no line takes none. -/
theorem FencedActs.unlocked {k : Holder} (hk : k ≠ .copy) (h : FencedActs s t) (hs : s.locks.lineOf k = none) :
    t.locks.lineOf k = none := by
  refine h.keeps (P := fun u => u.locks.lineOf k = none) (fun u v ha hu => ?_) hs
  cases ha with
  | unlock m => simp [Locks.setLine_lineOf, hu]
  | lockCopy p hp => simp [Locks.setLine_lineOf, hu, hk.symm]
  | _ => exact hu

/-- A copy that is IDLE or ABORTING and holds no line takes none. -/
theorem FencedActs.copyUnlocked (h : FencedActs s t) (hc : s.copy.state = .idle ∨ s.copy.state = .aborting)
    (hs : s.locks.copy = none) : t.locks.copy = none := by
  refine (h.keeps (P := fun u => (u.copy.state = .idle ∨ u.copy.state = .aborting) ∧
    u.locks.lineOf .copy = none) (fun u v ha hu => ?_) ⟨hc, hs⟩).2
  obtain ⟨hu, hl⟩ := hu
  cases ha with
  | unlock k => exact ⟨hu, by simp [Locks.setLine_lineOf, hl]⟩
  | lockCopy p hp => simp [hp] at hu
  | copy w hw =>
    refine ⟨?_, hl⟩
    rcases hw with hw | hw | hw
    · exact hw ▸ hu
    · exact .inl hw
    · simp [hw] at hu
  | _ => exact ⟨hu, hl⟩

/-- A FREE tag's record stays FREE. -/
theorem FencedActs.freeRecord {tag : HostTag} (h : FencedActs s t) (hs : s.host.recs[tag] = none) :
    t.host.recs[tag] = none := by
  refine h.keeps (P := fun u => u.host.recs[tag] = none) (fun u v ha hu => ?_) hs
  cases ha with
  | host w _ hr => exact hr tag hu
  | _ => exact hu

/-- A free ladder stays free. -/
theorem FencedActs.freeLadder {k : Fin 4} (h : FencedActs s t) (hs : s.host.ladders[k] = none) :
    t.host.ladders[k] = none := by
  refine h.keeps (P := fun u => u.host.ladders[k] = none) (fun u v ha hu => ?_) hs
  cases ha with
  | host w hl _ => exact hl k hu
  | _ => exact hu

/-! ### The operations as chains -/

theorem FencedActs.removeHolder (k : Holder) (h : FencedActs s t) : FencedActs s (removeHolder k t) := by
  obtain ⟨H, L, T, hH, he⟩ := removeHolder_moves k t
  rw [he]
  exact (((h.tail (.host t H (fun i hi => by rw [hH.ladders]; exact hi) hH.free)).tail (.unlock _ k)).tail
    (.hold _ L)).tail (.stats _ T)

theorem FencedActs.sendCancel (h : FencedActs s t) : FencedActs s (sendCancel t) := by
  unfold Machine.sendCancel; split
  · exact h
  · exact FencedActs.ite (h.tail (.copy _ _ (.inl rfl))) (h.tail (.journal _ _))

theorem FencedActs.stepEnded (h : FencedActs s t) : FencedActs s (stepEnded t) :=
  FencedActs.sendCancel (FencedActs.removeHolder _ (h.tail (.copy _ _ (.inl rfl))))

theorem FencedActs.takeLine (hb : t.copy.state = .beginning) (h : FencedActs s t) : FencedActs s (takeLine t) := by
  have h1 := h.tail (.copy t { t.copy with state := .lineRead, request := .absent } (.inr (.inr hb)))
  unfold Machine.takeLine; dsimp only; split
  · exact h1.tail (.lockCopy _ _ rfl)
  · exact h1

theorem FencedActs.recordReported (k : RecordKind) (w : Bool) (h : FencedActs s t) :
    FencedActs s (recordReported k w t) := by
  unfold Machine.recordReported; split
  · unfold beginReported; split
    · rename_i hb; exact h.takeLine hb
    · exact h.stepEnded
    · exact h
  · unfold assignReported; split
    · exact h
    · exact (((h.tail (.remap _ _)).tail (.health _ _)).tail (.offer _ _)).tail (.copy _ _ (.inr (.inl rfl)))
  · exact h.tail (.copy _ _ (.inl rfl))

theorem FencedActs.serveCommand (h : FencedActs s t) : FencedActs s (serveCommand t) :=
  (h.tail (.journal _ _)).tail (.link _ _)

theorem FencedActs.serveHead (h : FencedActs s t) : FencedActs s (serveHead t) := by
  unfold Machine.serveHead; split
  · exact h
  · refine FencedActs.ite (FencedActs.ite (h.tail (.journal _ _)) (h.tail (.journal _ _))) ?_
    exact FencedActs.recordReported _ _ (h.tail (.journal _ _))
  · exact FencedActs.ite (h.tail (.journal _ _)) h.serveCommand
  · exact h.tail (.journal _ _)
  · exact FencedActs.serveCommand (FencedActs.ite ((h.tail (.journal _ _)).tail (.remap _ _)) h)

theorem FencedActs.serveWaiting (n : Nat) (h : FencedActs s t) : FencedActs s (serveWaiting n t) := by
  induction n generalizing t with
  | zero => exact h
  | succ n ih => exact FencedActs.ite (ih h.serveHead) h

theorem FencedActs.setRecord {tag : HostTag} {r : Option HostRec} (hr : t.host.recs[tag] = none → r = none)
    (h : FencedActs s t) : FencedActs s (setRecord tag r t) := by
  refine h.tail (.host _ _ (fun _ => id) fun x hx => ?_)
  rw [vector_set_getElem]; split
  · rename_i he; exact hr (he ▸ hx)
  · exact hx

theorem FencedActs.sendUp (r : UpResponse) (h : FencedActs s t) : FencedActs s (sendUp r t) :=
  h.tail (.host _ _ (fun _ => id) (fun _ => id))

theorem FencedActs.answerRead (tag : HostTag) (o : ReadOutcome) (d : LineData) (h : FencedActs s t) :
    FencedActs s (answerRead tag o d t) := (h.setRecord fun _ => rfl).sendUp _

theorem FencedActs.answerWrite (tag : HostTag) (o : WriteOutcome) (h : FencedActs s t) :
    FencedActs s (answerWrite tag o t) := (h.setRecord fun _ => rfl).sendUp _

theorem FencedActs.finishHalf (tag : HostTag) (half : Half) (w : HalfResult) (h : FencedActs s t) :
    FencedActs s (finishHalf tag half w t) := by
  unfold Machine.finishHalf; split
  · exact h
  · rename_i r hr
    exact FencedActs.ite (h.answerWrite _ _) (h.setRecord fun hn => absurd (hr.symm.trans hn) (by simp))

theorem FencedActs.withdrawHalves (n : Nat) (h : FencedActs s t) : FencedActs s (withdrawHalves n t) := by
  have one : ∀ (i : Issue) (t : State), FencedActs s t → FencedActs s (withdrawHalf i t) := by
    intro i t h; unfold withdrawHalf; split
    · exact FencedActs.ite (h.finishHalf _ _ _) h
    · exact h
  have all : ∀ (l : List Issue) (t : State), FencedActs s t →
      FencedActs s (l.foldl (fun t i => withdrawHalf i t) t) := by
    intro l
    induction l with
    | nil => exact fun _ h => h
    | cons i l ih => exact fun t h => ih _ (one i t h)
  exact all _ _ (h.tail (.host _ _ (fun _ => id) (fun _ => id)))

theorem FencedActs.abortEndIfDue (h : FencedActs s t) : FencedActs s (abortEndIfDue t) := by
  unfold Machine.abortEndIfDue
  refine FencedActs.ite ?_ h
  split
  · exact (((h.withdrawHalves _).tail (.remap _ _)).tail (.offer _ _)).tail (.copy _ _ (.inr (.inl rfl)))
  · exact h

theorem FencedActs.copyReadIfDue (h : FencedActs s t) : FencedActs s (copyReadIfDue t) := by
  unfold Machine.copyReadIfDue
  refine FencedActs.ite ?_ h
  unfold presentCopy; split
  · exact h
  · exact h.tail (.copy _ _ (.inl rfl))

theorem FencedActs.sweepReadIfDue (h : FencedActs s t) : FencedActs s (sweepReadIfDue t) := by
  unfold Machine.sweepReadIfDue; split
  · rename_i hd
    simp only [sweepReadDue, Bool.and_eq_true, beq_iff_eq] at hd
    unfold presentSweep; split
    · exact h
    · exact h.tail (.sweepRead _ _ hd.1.1)
  · exact h

/-- A FENCED bridge starts no copy (R6, R95). -/
theorem considerStart_of_fenced (h : s.mode = .fenced) : considerStart s = s :=
  considerStart_of_not_due (by simp [startDue, mayStart, h])

/-- What settles in FENCED is a chain of such acts. -/
theorem FencedActs.settle (hm : t.mode = .fenced) (h : FencedActs s t) : FencedActs s (settle t) := by
  have h1 : FencedActs t (Machine.abortEndIfDue (Machine.serveWaiting (t.journal.requests.length + 1) t)) :=
    (FencedActs.refl.serveWaiting _).abortEndIfDue
  simp only [Machine.settle, considerStart_of_fenced (h1.mode.trans hm)]
  exact h.trans ((h1.serveWaiting _).copyReadIfDue).sweepReadIfDue

end Sys2Proof.Machine

namespace Sys2Proof.Machine

/-! ## Entry to FENCED, by what the copy engine is doing

The copy engine is told first and the sweep after it (R6, R7): one equation for a copy with its step in flight, one for
a copy that waits for a quiet line, and one for a copy that goes on. -/

variable {s t u v w : State}

/-! ### The abort's step -/

/-- A copy context whose step has ended (R109). -/
def CopyCtx.stepOver (c : CopyCtx) : CopyCtx :=
  { c with stepInFlight := false, request := .absent, data := none, writeKind := none, retry := none }

/-- A copy context of an abort just begun, with the step in flight or without (R108). -/
def CopyCtx.abort (c : CopyCtx) (cause : AbortCause) (inFlight : Bool) : CopyCtx :=
  { c with state := .aborting, writeKind := none, cause := some cause, stepInFlight := inFlight }

/-- The CANCEL record that a copy asks for (R109). -/
def CopyJob.cancelRecord (j : CopyJob) : JRecord := ⟨.cancelRec, j.span, j.slot, 0⟩

/-- At the end of a step COPY leaves its line, and CANCEL is asked for (R109). -/
theorem stepEnded_eq (s : State) : stepEnded s = sendCancel ((removeHolder .copy s).setCopy s.copy.stepOver) :=
  congrArg sendCancel (removeHolder_setCopy .copy s.copy.stepOver s)

theorem recordSkipped_left (C : CopyCtx) (s : State) :
    recordSkipped ((removeHolder .copy s).setCopy C) = recordSkipped s := by
  simp only [recordSkipped, State.setCopy_journal, removeHolder_journal]

/-- A CANCEL record that is skipped is reported at once (R109, R131). -/
theorem stepEnded_of_skipped {j : CopyJob} (hj : s.copy.job = some j) (hk : recordSkipped s = true) :
    stepEnded s = (removeHolder .copy s).setCopy { s.copy.stepOver with cancelDone := true } := by
  have hj' : ((removeHolder .copy s).setCopy s.copy.stepOver).copy.job = some j := hj
  rw [stepEnded_eq, sendCancel, hj']
  simp only [recordSkipped_left, hk, if_true]
  rfl

/-- A CANCEL record that is not skipped joins the request list (R109, R131). -/
theorem stepEnded_of_taken {j : CopyJob} (hj : s.copy.job = some j) (hk : recordSkipped s = false) :
    stepEnded s = ((removeHolder .copy s).setJournal
      { s.journal with requests := s.journal.requests ++ [.record j.cancelRecord] }).setCopy s.copy.stepOver := by
  have hj' : ((removeHolder .copy s).setCopy s.copy.stepOver).copy.job = some j := hj
  rw [stepEnded_eq, sendCancel, hj']
  simp only [recordSkipped_left, hk, ← removeHolder_journal .copy s]
  rfl

/-- What the end of a step changes beside COPY's line: the copy context, and the request list (R109). -/
theorem stepEnded_frame (s : State) : ∃ J C, stepEnded s = ((removeHolder .copy s).setJournal J).setCopy C ∧
    (recordSkipped s = false → C = s.copy.stepOver ∧
      (J = s.journal ∨ ∃ r, J = { s.journal with requests := s.journal.requests ++ [.record r] })) := by
  cases hj : s.copy.job with
  | none =>
    have hj' : ((removeHolder .copy s).setCopy s.copy.stepOver).copy.job = none := hj
    refine ⟨s.journal, _, ?_, fun _ => ⟨rfl, .inl rfl⟩⟩
    rw [stepEnded_eq, sendCancel, hj', ← removeHolder_journal .copy s]; rfl
  | some j =>
    cases hk : recordSkipped s with
    | true => exact ⟨(removeHolder .copy s).journal, _, stepEnded_of_skipped hj hk, by simp⟩
    | false => exact ⟨_, _, stepEnded_of_taken hj hk, fun _ => ⟨rfl, .inr ⟨_, rfl⟩⟩⟩

/-- The table with the entry of the copy under way put in ABORTING (R19, R20). -/
def abortEntry (c : CopyCtx) (r : Remap) : Remap :=
  match c.job with
  | some j => modifyEntry j.entry (fun b => { b with stage := .aborting }) r
  | none => r

theorem modifyJobEntry_abort (s : State) :
    modifyJobEntry (fun b => { b with stage := .aborting }) s = s.setRemap (abortEntry s.copy s.remap) := by
  cases hj : s.copy.job <;> simp only [modifyJobEntry, abortEntry, hj]
  rfl

theorem abortEntry_eq {c : CopyCtx} {r : Remap} {j : CopyJob} {b : Binding} (hj : c.job = some j)
    (hb : r[j.entry] = some b) (hs : b.stage = .copying) :
    abortEntry c r = r.set j.entry (some { b with stage := .aborting }) := by
  have hb : r[j.entry] = some b := hb
  simp only [abortEntry, hj, modifyEntry, hb, hs]; rfl

/-- An abort begun: the entry in ABORTING, and the copy context (R19, R20, R108). -/
def State.aborted (s : State) (cause : AbortCause) (inFlight : Bool) : State :=
  (s.setRemap (abortEntry s.copy s.remap)).setCopy (s.copy.abort cause inFlight)

/-- An abort that begins with a step in flight goes on from there (R108). -/
theorem beginAbort_of_inFlight (c : AbortCause) (h : s.copy.state = .beginning ∨ s.copy.request ≠ .absent) :
    beginAbort c s = s.aborted c true := by
  have hf : (s.copy.state == .beginning || s.copy.request != .absent) = true := by
    rcases h with h | h <;> simp [h]
  simp only [beginAbort, modifyJobEntry_abort, State.setRemap_copy, hf, if_true]
  rfl

/-- An abort that begins while the copy waits for a quiet line has no step in flight (R108). -/
theorem beginAbort_of_waiting (c : AbortCause) (hs : s.copy.state ≠ .beginning) (hr : s.copy.request = .absent) :
    beginAbort c s = stepEnded (s.aborted c false) := by
  have hf : (s.copy.state == .beginning || s.copy.request != .absent) = false := by simp [hs, hr]
  simp only [beginAbort, modifyJobEntry_abort, State.setRemap_copy, hf]
  rfl

/-! ### Entry to FENCED -/

/-- The bridge FENCED with its event, before the copy engine and the sweep are told (R4). -/
def fenceTold (p : PhysLine) (s : State) : State :=
  (offer (lineEvent .fenced .port p none) s).setMode .fenced

/-- The sweep at entry to FENCED (R7, R125). -/
def Sweep.fenced (w : Sweep) : Sweep :=
  if lineInProgress w then { w with positionHeld := true }
  else if w.state = .waiting then { w with state := .stopped, timer := none, stopPending := false }
  else w

theorem sweepFence_eq (s : State) : sweepFence s = s.setSweep s.sweep.fenced := by
  unfold sweepFence Sweep.fenced; split
  · rfl
  · split <;> rfl

/-- Entry to FENCED keeps the sweep's request: what is at memory or presented goes on (R125). -/
theorem Sweep.fenced_request (w : Sweep) : w.fenced.request = w.request := by
  unfold Sweep.fenced; split
  · rfl
  · split <;> rfl

theorem enterFence_of_fenced (p : PhysLine) (h : s.mode = .fenced) : enterFence p s = s := if_pos h

theorem enterFence_of_not_fenced (p : PhysLine) (h : s.mode ≠ .fenced) :
    enterFence p s = (copyFence (fenceTold p s)).setSweep (copyFence (fenceTold p s)).sweep.fenced :=
  (if_neg h).trans (sweepFence_eq _)

/-- A copy in IDLE, COMMITTING or ABORTING goes on at entry to FENCED (R6, R20, R110). -/
theorem enterFence_of_not_copying (p : PhysLine) (hm : s.mode ≠ .fenced) (hc : inCopying s.copy = false) :
    enterFence p s = (fenceTold p s).setSweep s.sweep.fenced := by
  have : copyFence (fenceTold p s) = fenceTold p s := if_neg (by simp [fenceTold, offer, hc])
  rw [enterFence_of_not_fenced p hm, this]; rfl

/-- A copy with a step in flight is ABORTING with that step in flight after entry to FENCED (R6, R108, R110). -/
theorem enterFence_of_inFlight (p : PhysLine) (hm : s.mode ≠ .fenced) (hc : inCopying s.copy = true)
    (hf : s.copy.state = .beginning ∨ s.copy.request ≠ .absent) :
    enterFence p s = ((fenceTold p s).aborted .fence true).setSweep s.sweep.fenced := by
  have : copyFence (fenceTold p s) = (fenceTold p s).aborted .fence true :=
    (if_pos hc).trans (beginAbort_of_inFlight (s := fenceTold p s) .fence hf)
  rw [enterFence_of_not_fenced p hm, this]; rfl

/-- A copy with no request has its step ended at entry to FENCED (R6, R109, R110). -/
theorem enterFence_of_waiting (p : PhysLine) (hm : s.mode ≠ .fenced) (hc : inCopying s.copy = true)
    (hs : s.copy.state ≠ .beginning) (hr : s.copy.request = .absent) :
    enterFence p s = (stepEnded ((fenceTold p s).aborted .fence false)).setSweep s.sweep.fenced := by
  have he : copyFence (fenceTold p s) = stepEnded ((fenceTold p s).aborted .fence false) :=
    (if_pos hc).trans (beginAbort_of_waiting (s := fenceTold p s) .fence hs hr)
  have hw : (stepEnded ((fenceTold p s).aborted .fence false)).sweep = s.sweep := by
    obtain ⟨J, C, hx, -⟩ := stepEnded_frame ((fenceTold p s).aborted .fence false)
    obtain ⟨H, L, T, -, hy⟩ := removeHolder_moves .copy ((fenceTold p s).aborted .fence false)
    rw [hx, hy]; rfl
  rw [enterFence_of_not_fenced p hm, he, hw]

/-- What entry to FENCED comes to, whatever the copy engine does: the event, the sweep told, and no more than the
copy, its entry and its line (R4, R6, R7). -/
structure Fenced (p : PhysLine) (s t : State) : Prop where
  mode : t.mode = .fenced
  port : t.port = s.port
  retire : t.retire = s.retire
  events : t.events = (fenceTold p s).events
  sweep : t.sweep = s.sweep.fenced
  host : s.host.Requeued t.host

theorem enterFence_fenced (p : PhysLine) (hm : s.mode ≠ .fenced) : Fenced p s (enterFence p s) := by
  cases hc : inCopying s.copy with
  | false =>
    rw [enterFence_of_not_copying p hm hc]
    exact ⟨rfl, rfl, rfl, rfl, rfl, .refl _⟩
  | true =>
    by_cases hf : s.copy.state = .beginning ∨ s.copy.request ≠ .absent
    · rw [enterFence_of_inFlight p hm hc hf]
      exact ⟨rfl, rfl, rfl, rfl, rfl, .refl _⟩
    · obtain ⟨hb, hr⟩ := not_or.1 hf
      obtain ⟨J, C, hx, -⟩ := stepEnded_frame ((fenceTold p s).aborted .fence false)
      obtain ⟨H, L, T, hH, hy⟩ := removeHolder_moves .copy ((fenceTold p s).aborted .fence false)
      rw [enterFence_of_waiting p hm hc hb (not_not.1 hr), hx, hy]
      exact ⟨rfl, rfl, rfl, rfl, rfl, hH⟩

end Sys2Proof.Machine

namespace Sys2Proof.Machine

/-! ## The originator told, and the sweep after the failure -/

variable {s t u v w : State} {i : Issue}

/-! ### The originator told of the failure -/

theorem tellFailed_of_copy (h : i.origin.isCopy = true) (s : State) : tellFailed i s = copyStepFailed s := by
  unfold tellFailed; split <;> simp_all [Originator.isCopy]

theorem tellFailed_of_sweep (h : i.origin.isSweep = true) (s : State) : tellFailed i s = abandonLine s := by
  unfold tellFailed; split <;> simp_all [Originator.isSweep]

theorem tellFailed_of_host (hc : i.origin.isCopy = false) (hs : i.origin.isSweep = false) (s : State) :
    tellFailed i s = hostRequestFailed i s := by
  unfold tellFailed hostRequestFailed; cases ho : i.origin <;> simp_all [Originator.isCopy, Originator.isSweep]

/-- A request is of one originator alone. -/
theorem Originator.not_isCopy_of_isSweep {o : Originator} (h : o.isSweep = true) : o.isCopy = false := by
  cases o <;> simp_all [Originator.isCopy, Originator.isSweep]

/-- The sweep STOPPED with its line abandoned (R120). -/
def Sweep.abandoned (w : Sweep) : Sweep :=
  { clearLine w with state := .stopped, timer := none, stopPending := false }

theorem abandonLine_eq (s : State) : abandonLine s = (removeHolder .sweep s).setSweep s.sweep.abandoned := by
  obtain ⟨H, L, T, -, h⟩ := removeHolder_moves .sweep s
  rw [abandonLine, h]; rfl

/-- Entry to FENCED touches no field that an abandoned line does not set, but position held (R7, R120, R125). -/
theorem Sweep.abandoned_fenced (w : Sweep) :
    w.fenced.abandoned = { w.abandoned with positionHeld := w.fenced.positionHeld } := by
  unfold Sweep.fenced; split
  · rfl
  · split <;> rfl

theorem FencedActs.endLadder (k : Fin 4) (h : FencedActs s t) : FencedActs s (endLadder k t) := by
  refine FencedActs.removeHolder _ (h.tail (.host _ _ (fun m hm => ?_) (fun _ => id)))
  rw [vector_set_getElem]; split
  · rfl
  · exact hm

theorem FencedActs.hostRequestFailed (i : Issue) (h : FencedActs s t) : FencedActs s (hostRequestFailed i t) := by
  unfold Machine.hostRequestFailed; split
  · exact FencedActs.ite (h.answerRead _ _ _) h
  · exact FencedActs.ite ((h.answerRead _ _ _).endLadder _) h
  · exact FencedActs.ite (h.finishHalf _ _ _) h
  · exact h

/-- `t` is `s` in all but where host requests stand, the locks beside COPY's, and the sweep: so a request of
another originator than the copy engine leaves the bridge when it fails. -/
structure BesideCopy (s t : State) : Prop where
  mode : t.mode = s.mode
  port : t.port = s.port
  geom : t.geom = s.geom
  remap : t.remap = s.remap
  copy : t.copy = s.copy
  journal : t.journal = s.journal
  followOns : t.host.followOns = s.host.followOns
  lock : t.locks.copy = s.locks.copy

theorem BesideCopy.refl (s : State) : BesideCopy s s := ⟨rfl, rfl, rfl, rfl, rfl, rfl, rfl, rfl⟩

theorem BesideCopy.removeHolder {k : Holder} (hk : k ≠ .copy) (h : BesideCopy s t) :
    BesideCopy s (removeHolder k t) := by
  obtain ⟨H, L, T, hH, he⟩ := removeHolder_moves k t
  obtain ⟨hm, hp, hg, hr, hc, hj, hf, hl⟩ := h
  have hl' : (t.locks.setLine k none).copy = t.locks.copy := by
    cases k with
    | copy => exact absurd rfl hk
    | sweep => rfl
    | ladder k => rfl
  rw [he]
  exact ⟨hm, hp, hg, hr, hc, hj, hH.followOns.trans hf, hl'.trans hl⟩

theorem hostRequestFailed_besideCopy (i : Issue) (s : State) : BesideCopy s (hostRequestFailed i s) := by
  unfold hostRequestFailed; split
  · split <;> exact ⟨rfl, rfl, rfl, rfl, rfl, rfl, rfl, rfl⟩
  · split
    · exact BesideCopy.removeHolder (by simp) ⟨rfl, rfl, rfl, rfl, rfl, rfl, rfl, rfl⟩
    · exact .refl s
  · split
    · unfold finishHalf; split
      · exact .refl s
      · dsimp only; split <;> exact ⟨rfl, rfl, rfl, rfl, rfl, rfl, rfl, rfl⟩
    · exact .refl s
  · exact .refl s

theorem tellFailed_besideCopy (hc : i.origin.isCopy = false) (s : State) : BesideCopy s (tellFailed i s) := by
  cases hs : i.origin.isSweep with
  | false => rw [tellFailed_of_host hc hs]; exact hostRequestFailed_besideCopy i s
  | true =>
    rw [tellFailed_of_sweep hs, abandonLine_eq]
    obtain ⟨hm, hp, hg, hr, hc, hj, hf, hl⟩ := (BesideCopy.refl s).removeHolder (k := .sweep) (by simp)
    exact ⟨hm, hp, hg, hr, hc, hj, hf, hl⟩

theorem removeHolder_sweep (k : Holder) (s : State) : (removeHolder k s).sweep = s.sweep := by
  obtain ⟨H, L, T, -, h⟩ := removeHolder_moves k s
  rw [h]; rfl

theorem stepEnded_sweep (s : State) : (stepEnded s).sweep = s.sweep := by
  obtain ⟨J, C, h, -⟩ := stepEnded_frame s
  rw [h]; exact removeHolder_sweep .copy s

theorem finishHalf_sweep (tag : HostTag) (half : Half) (x : HalfResult) (s : State) :
    (finishHalf tag half x s).sweep = s.sweep := by
  unfold finishHalf; split
  · rfl
  · dsimp only; split <;> rfl

theorem hostRequestFailed_sweep (i : Issue) (s : State) : (hostRequestFailed i s).sweep = s.sweep := by
  unfold hostRequestFailed; split
  · split <;> rfl
  · split
    · exact removeHolder_sweep _ _
    · rfl
  · split
    · exact finishHalf_sweep _ _ _ s
    · rfl
  · rfl

/-- The sweep is told of the failure of its own requests alone (R73, Table 5-4). -/
theorem tellFailed_sweep (i : Issue) (s : State) :
    (tellFailed i s).sweep = if i.origin.isSweep then s.sweep.abandoned else s.sweep := by
  cases hs : i.origin.isSweep with
  | true => rw [tellFailed_of_sweep hs, abandonLine_eq]; rfl
  | false =>
    cases hc : i.origin.isCopy with
    | true =>
      rw [tellFailed_of_copy hc]; unfold copyStepFailed; split
      · exact stepEnded_sweep s
      · rfl
    | false => rw [tellFailed_of_host hc hs]; exact hostRequestFailed_sweep i s

theorem tellFailed_lasts (i : Issue) (s : State) : FenceLasts s (tellFailed i s) := by
  cases hs : i.origin.isSweep with
  | true =>
    obtain ⟨hm, hp, hr, hq, hf⟩ := (FencedActs.refl (s := s).removeHolder .sweep).lasts
    rw [tellFailed_of_sweep hs, abandonLine_eq]
    exact ⟨hm, hp, hr, hq, hf⟩
  | false =>
    cases hc : i.origin.isCopy with
    | true =>
      rw [tellFailed_of_copy hc]
      exact (FencedActs.ite FencedActs.refl.stepEnded .refl).lasts
    | false => rw [tellFailed_of_host hc hs]; exact (FencedActs.refl.hostRequestFailed i).lasts

/-! ### A request that fails for good -/

/-- The bridge FENCED by the failure of a request's reissue, with its originator told (R4, R73). -/
def failedForGood (i : Issue) (s : State) : State := tellFailed i (enterFence i.req.line s)

theorem enterFence_mode (p : PhysLine) (s : State) : (enterFence p s).mode = .fenced := by
  by_cases hm : s.mode = .fenced
  · rw [enterFence_of_fenced p hm, hm]
  · exact (enterFence_fenced p hm).mode

theorem failed_mode (i : Issue) (s : State) : (failedForGood i s).mode = .fenced :=
  (tellFailed_lasts _ _).mode.trans (enterFence_mode _ _)

/-- What follows a failure is a chain of acts in FENCED. -/
theorem settle_failed (i : Issue) (s : State) : FencedActs (failedForGood i s) (settle (failedForGood i s)) :=
  FencedActs.refl.settle (failed_mode i s)

theorem FenceLasts.trans (h : FenceLasts s t) (h' : FenceLasts t u) : FenceLasts s u :=
  ⟨h'.mode.trans h.mode, h'.port.trans h.port, h'.retire.trans h.retire, h.records.trans h'.records,
    fun k hk => h'.flags k (h.flags k hk)⟩

/-- From the state just FENCED, its event offered, nothing is lost that lasts. -/
theorem settle_failed_lasts (i : Issue) (hm : s.mode ≠ .fenced) :
    FenceLasts (fenceTold i.req.line s) (settle (failedForGood i s)) := by
  have h := enterFence_fenced i.req.line hm
  have h1 : FenceLasts (fenceTold i.req.line s) (enterFence i.req.line s) :=
    ⟨h.mode, h.port, h.retire, by rw [h.events], by rw [h.events]; exact fun _ => id⟩
  exact (h1.trans (tellFailed_lasts i _)).trans (settle_failed i s).lasts

/-- The FENCED event is offered before all that follows, and the records it leaves stay (R4). -/
theorem settle_failed_records (i : Issue) (hm : s.mode ≠ .fenced) :
    (offer (lineEvent .fenced .port i.req.line none) s).events.records <+:
      (settle (failedForGood i s)).events.records := (settle_failed_lasts i hm).records

theorem settle_failed_lasts_of_fenced (i : Issue) (hm : s.mode = .fenced) :
    FenceLasts s (settle (failedForGood i s)) := by
  have := (tellFailed_lasts i _).trans (settle_failed i s).lasts
  rwa [enterFence_of_fenced _ hm] at this

/-- The bridge is FENCED, its port and Retirement Queue as they were, and the flags that were set are set. -/
theorem settle_failed_frame (i : Issue) (s : State) : (settle (failedForGood i s)).mode = .fenced ∧
    (settle (failedForGood i s)).port = s.port ∧ (settle (failedForGood i s)).retire = s.retire ∧
    ∀ k, s.events.flags.getLsbD k = true → (settle (failedForGood i s)).events.flags.getLsbD k = true := by
  by_cases hm : s.mode = .fenced
  · have h := settle_failed_lasts_of_fenced i hm
    exact ⟨h.mode.trans hm, h.port, h.retire, h.flags⟩
  · have h := settle_failed_lasts i hm
    exact ⟨h.mode, h.port, h.retire, fun k hk => h.flags k (offer_keeps_flag _ s k hk)⟩

/-! ### The sweep -/

/-- The sweep once a request has failed for good, before what follows. -/
theorem failed_sweep (i : Issue) (hm : s.mode ≠ .fenced) :
    (failedForGood i s).sweep = if i.origin.isSweep then s.sweep.fenced.abandoned else s.sweep.fenced := by
  rw [failedForGood, tellFailed_sweep, (enterFence_fenced i.req.line hm).sweep]

/-- A WAITING sweep is STOPPED by the fence, its timer off (R7, R125). -/
theorem settle_failed_sweep_waiting (i : Issue) (hm : s.mode ≠ .fenced) (hw : s.sweep.state = .waiting) :
    (settle (failedForGood i s)).sweep.state = .stopped ∧ (settle (failedForGood i s)).sweep.timer = none := by
  have hf : s.sweep.fenced.state = .stopped ∧ s.sweep.fenced.timer = none := by
    simp [Sweep.fenced, lineInProgress, hw]
  have hs : (failedForGood i s).sweep.state = .stopped ∧ (failedForGood i s).sweep.timer = none := by
    rw [failed_sweep i hm]; split
    · exact ⟨rfl, rfl⟩
    · exact hf
  obtain ⟨r, hr, -⟩ := (settle_failed i s).sweep
  rw [hr]; exact hs

/-- A line in progress goes on and keeps its position, when the failed request is another's (R7, R125). -/
theorem settle_failed_sweep_line (hm : s.mode ≠ .fenced) (hl : lineInProgress s.sweep = true)
    (hs : i.origin.isSweep = false) : (settle (failedForGood i s)).sweep.state = s.sweep.state ∧
      (settle (failedForGood i s)).sweep.positionHeld = true := by
  obtain ⟨r, hr, -⟩ := (settle_failed i s).sweep
  rw [hr, failed_sweep i hm, hs, Sweep.fenced, if_pos hl]
  exact ⟨rfl, rfl⟩

/-- The sweep once its own request has failed for good: abandoned, with position held as the fence left it. -/
theorem failed_sweep_own (hs : i.origin.isSweep = true) (s : State) :
    ∃ b, (failedForGood i s).sweep = { s.sweep.abandoned with positionHeld := b } := by
  by_cases hm : s.mode = .fenced
  · exact ⟨s.sweep.positionHeld, by rw [failedForGood, tellFailed_sweep, enterFence_of_fenced _ hm, if_pos hs]; rfl⟩
  · exact ⟨_, by rw [failed_sweep i hm, if_pos hs]; exact Sweep.abandoned_fenced _⟩

/-- The sweep's own failed request abandons its line: SWEEP leaves it and every field of the line is clear
(R120). -/
theorem settle_failed_sweep_own (hs : i.origin.isSweep = true) (s : State) :
    (settle (failedForGood i s)).locks.sweep = none ∧ (settle (failedForGood i s)).sweep = { s.sweep with
      state := .stopped, line := none, data := none, retry := none, request := .absent, timer := none
      stopPending := false, positionHeld := (settle (failedForGood i s)).sweep.positionHeld } := by
  have hl : (failedForGood i s).locks.lineOf .sweep = none := by
    rw [failedForGood, tellFailed_of_sweep hs, abandonLine_eq, State.setSweep_locks, removeHolder_locks]; rfl
  obtain ⟨b, hb⟩ := failed_sweep_own hs s
  have ht := settle_failed i s
  generalize settle (failedForGood i s) = t at ht ⊢
  obtain ⟨r, hr, hq⟩ := ht.sweep
  have hr' : r = .absent := by rw [hq (by rw [hb]; simp [Sweep.abandoned]), hb]; rfl
  refine ⟨ht.unlocked (by simp) hl, ?_⟩
  rw [hr, hb, hr']; rfl

end Sys2Proof.Machine

namespace Sys2Proof.Machine

/-! ## A copy stopped by the fence, and what then follows -/

variable {s t u v w : State} {i : Issue}

/-! ### What settling comes to in FENCED -/

theorem copyReadIfDue_frame (s : State) : ∃ r, copyReadIfDue s = s.setCopy { s.copy with request := r } ∧
    (s.copy.state ≠ .lineRead → r = s.copy.request) := by
  unfold copyReadIfDue; split
  · rename_i hd
    simp only [copyReadDue, Bool.and_eq_true, beq_iff_eq] at hd
    unfold presentCopy; split
    · exact ⟨s.copy.request, rfl, fun _ => rfl⟩
    · exact ⟨_, rfl, fun h => absurd hd.1.1 h⟩
  · exact ⟨s.copy.request, rfl, fun _ => rfl⟩

theorem sweepReadIfDue_frame (s : State) : ∃ r, sweepReadIfDue s = s.setSweep { s.sweep with request := r } := by
  unfold sweepReadIfDue presentSweep; split
  · split
    · exact ⟨s.sweep.request, rfl⟩
    · exact ⟨_, rfl⟩
  · exact ⟨s.sweep.request, rfl⟩

/-- A FENCED bridge with no request to serve settles by the end of an abort and the READs of quiet lines. -/
theorem settle_of_fenced (hm : s.mode = .fenced) (hd : serveDue s = false) :
    settle s = sweepReadIfDue (copyReadIfDue (abortEndIfDue s)) := by
  have hm' : (abortEndIfDue s).mode = .fenced := (FencedActs.refl.abortEndIfDue).mode.trans hm
  have hd' : serveDue (abortEndIfDue s) = false := by rw [serveDue, abortEndIfDue_journal]; exact hd
  simp only [settle, serveWaiting_of_not_due hd, considerStart_of_fenced hm', serveWaiting_of_not_due hd']

/-- With no abort to end either, only the READs of quiet lines are presented. -/
theorem settle_of_nothing_due (hm : s.mode = .fenced) (hd : serveDue s = false) (ha : abortEndDue s = false) :
    ∃ q r, settle s = (s.setCopy { s.copy with request := q }).setSweep { s.sweep with request := r } ∧
      (s.copy.state ≠ .lineRead → q = s.copy.request) := by
  obtain ⟨q, hq, hc⟩ := copyReadIfDue_frame s
  obtain ⟨r, hr⟩ := sweepReadIfDue_frame (s.setCopy { s.copy with request := q })
  exact ⟨q, r, by rw [settle_of_fenced hm hd, abortEndIfDue_of_not_due ha, hq, hr]; rfl, hc⟩

/-- With no line to read either, the copy engine, its table and the journal stay. -/
theorem settle_keeps_copy (hm : s.mode = .fenced) (hd : serveDue s = false) (ha : abortEndDue s = false)
    (hl : s.copy.state ≠ .lineRead) :
    (settle s).remap = s.remap ∧ (settle s).journal = s.journal ∧ (settle s).copy = s.copy := by
  obtain ⟨q, r, hx, hq⟩ := settle_of_nothing_due hm hd ha
  rw [hx, hq hl]
  exact ⟨rfl, rfl, rfl⟩

/-- A request served by a controller that takes up work with it is the first thing to follow (R131). -/
theorem settle_of_served (hd : serveDue s = true) (hw : (serveHead s).journal.task ≠ .idle) :
    settle s = settle (serveHead s) := by
  have hn : serveDue (serveHead s) = false := by simp [serveDue, hw]
  have hs : serveWaiting (s.journal.requests.length + 1) s = serveHead s := by
    rw [serveWaiting, if_pos hd, serveWaiting_of_not_due hn]
  simp only [settle, hs, serveWaiting_of_not_due hn]

/-- A record just asked of a controller that takes records is served before all else, or waits (R131, R132). -/
theorem settle_of_asked {J : Journal} {r : JRecord} (hJ : J.TakesRecords)
    (hj : s.journal = { J with requests := J.requests ++ [.record r] }) :
    settle s = settle (s.setJournal (J.asked r)) ∧ serveDue (s.setJournal (J.asked r)) = false := by
  obtain ⟨ho, -, hi⟩ := hJ
  by_cases ht : J.task = .idle
  · obtain ⟨hr, hn⟩ := hi ht
    have hh : serveHead s = s.setJournal (J.asked r) := by
      simp [serveHead, hj, hr, ho, hn, setTask, Journal.asked, ht]
    have hd : serveDue s = true := by simp [serveDue, hj, ht]
    refine ⟨hh ▸ settle_of_served hd ?_, ?_⟩
    · rw [hh]; simp [Journal.asked, ht]
    · simp [serveDue, Journal.asked, ht]
  · have hs : s.setJournal (J.asked r) = s := by
      rw [Journal.asked, if_neg ht, ← hj]; rfl
    rw [hs]
    exact ⟨rfl, by simp [serveDue, hj, ht]⟩

/-! ### A copy stopped by the fence -/

/-- The copy is stopped in `t`: its entry in ABORTING, COPY off its line, no step in flight, and its CANCEL record
asked for as `s` takes or skips records (R103, R109, R110). -/
structure CopyStopped (s t : State) (j : CopyJob) (b : Binding) (cause : AbortCause) : Prop where
  mode : t.mode = .fenced
  port : t.port = s.port
  geom : t.geom = s.geom
  entry : t.remap[j.entry] = some { b with stage := .aborting }
  lock : t.locks.copy = none
  copy : t.copy = { (s.copy.abort cause false).stepOver with cancelDone := s.copy.cancelDone || recordSkipped s }
  journal : t.journal = if recordSkipped s then s.journal
    else { s.journal with requests := s.journal.requests ++ [.record j.cancelRecord] }
  followOns : t.host.followOns = s.host.followOns

/-- The end of the step stops a copy in ABORTING (R103, R109). -/
theorem CopyStopped.of_stepEnded {j : CopyJob} {b : Binding} {cause : AbortCause} (hj : s.copy.job = some j)
    (hm : w.mode = .fenced) (hp : w.port = s.port) (hg : w.geom = s.geom)
    (he : w.remap[j.entry] = some { b with stage := .aborting })
    (hc : w.copy.stepOver = (s.copy.abort cause false).stepOver) (hl : w.journal = s.journal)
    (hf : w.host.followOns = s.host.followOns) : CopyStopped s (stepEnded w) j b cause := by
  have hj' : w.copy.job = some j := (congrArg CopyCtx.job hc).trans hj
  have hd : w.copy.stepOver.cancelDone = s.copy.cancelDone := by rw [hc]; rfl
  have hk : recordSkipped w = recordSkipped s := by simp only [recordSkipped, hl]
  obtain ⟨H, L, T, hH, hy⟩ := removeHolder_moves .copy w
  cases h : recordSkipped s with
  | true =>
    rw [stepEnded_of_skipped hj' (hk.trans h), hy, hc]
    refine ⟨by simpa using hm, by simpa using hp, by simpa using hg, by simpa using he, rfl, ?_, ?_, ?_⟩
    · simp [h]
    · rw [h, if_pos rfl, State.setCopy_journal, ← hl, ← removeHolder_journal .copy w, hy]
    · simpa using hH.followOns.trans hf
  | false =>
    rw [stepEnded_of_taken hj' (hk.trans h), hy, hc, hl]
    refine ⟨by simpa using hm, by simpa using hp, by simpa using hg, by simpa using he, rfl, ?_, ?_, ?_⟩
    · rw [h, Bool.or_false]; rfl
    · simp [h]
    · simpa using hH.followOns.trans hf

/-- What the failure of another originator's request does beside the copy engine leaves the copy stopped. -/
theorem CopyStopped.besideCopy {j : CopyJob} {b : Binding} {cause : AbortCause} (h : CopyStopped s t j b cause)
    (ht : BesideCopy t u) : CopyStopped s u j b cause where
  mode := ht.mode.trans h.mode
  port := ht.port.trans h.port
  geom := ht.geom.trans h.geom
  entry := by rw [ht.remap]; exact h.entry
  lock := ht.lock.trans h.lock
  copy := ht.copy.trans h.copy
  journal := ht.journal.trans h.journal
  followOns := ht.followOns.trans h.followOns

/-- A table's entry put in ABORTING, read back. -/
theorem abortEntry_getElem {c : CopyCtx} {r : Remap} {j : CopyJob} {b : Binding} (hj : c.job = some j)
    (hb : r[j.entry] = some b) (hs : b.stage = .copying) :
    (abortEntry c r)[j.entry] = some { b with stage := .aborting } := by
  rw [abortEntry_eq hj hb hs, vector_set_getElem, if_pos rfl]

/-- The copy engine's own failed request stops its copy: one in COPYING is fenced first, and one in ABORTING has its
step ended with its cause kept (R103, R109, R110). -/
theorem failed_copy_own {j : CopyJob} {b : Binding} {cause : AbortCause} (hi : i.origin.isCopy = true)
    (hj : s.copy.job = some j) (hb : s.remap[j.entry] = some b) (hr : s.copy.request = .atMemory)
    (hc : s.mode ≠ .fenced ∧ inCopying s.copy = true ∧ b.stage = .copying ∧ cause = .fence ∨
      s.copy.state = .aborting ∧ b.stage = .aborting ∧ s.copy.cause = some cause) :
    CopyStopped s (failedForGood i s) j b cause := by
  rcases hc with ⟨hm, hc, hs, rfl⟩ | ⟨hc, hs, hcause⟩
  · have hf : s.copy.state = .beginning ∨ s.copy.request ≠ .absent := .inr (by rw [hr]; simp)
    rw [failedForGood, tellFailed_of_copy hi, enterFence_of_inFlight _ hm hc hf]
    refine CopyStopped.of_stepEnded hj rfl rfl rfl ?_ rfl rfl rfl
    exact abortEntry_getElem hj hb hs
  · have hn : inCopying s.copy = false := by simp [inCopying, hc]
    have ho : s.copy.stepOver = (s.copy.abort cause false).stepOver := by
      rw [CopyCtx.stepOver, CopyCtx.stepOver, CopyCtx.abort, ← hc, ← hcause]
    have hb' : s.remap[j.entry] = some { b with stage := .aborting } := by rw [hb, ← hs]
    have ht : ∀ u : State, u.copy = s.copy → copyStepFailed u = stepEnded u := fun u hu => if_pos (by rw [hu, hc])
    rw [failedForGood, tellFailed_of_copy hi]
    by_cases hm : s.mode = .fenced
    · rw [enterFence_of_fenced _ hm, ht s rfl]
      exact CopyStopped.of_stepEnded hj hm rfl rfl hb' ho rfl rfl
    · rw [enterFence_of_not_copying _ hm hn, ht ((fenceTold _ s).setSweep s.sweep.fenced) rfl]
      exact CopyStopped.of_stepEnded hj rfl rfl rfl hb' ho rfl rfl

/-- A copy that waits for a quiet line is stopped by the fence of another originator's request (R6, R110). -/
theorem failed_copy_waiting {j : CopyJob} {b : Binding} (hi : i.origin.isCopy = false)
    (hj : s.copy.job = some j) (hb : s.remap[j.entry] = some b) (hm : s.mode ≠ .fenced)
    (hc : s.copy.state = .lineRead) (hr : s.copy.request = .absent) (hs : b.stage = .copying) :
    CopyStopped s (failedForGood i s) j b .fence := by
  have hn : inCopying s.copy = true := by simp [inCopying, hc]
  refine CopyStopped.besideCopy ?_ (tellFailed_besideCopy hi _)
  rw [enterFence_of_waiting _ hm hn (by rw [hc]; simp) hr]
  have h : CopyStopped s (stepEnded ((fenceTold i.req.line s).aborted .fence false)) j b .fence :=
    CopyStopped.of_stepEnded hj rfl rfl rfl (abortEntry_getElem hj hb hs) rfl rfl rfl
  exact h.besideCopy ⟨rfl, rfl, rfl, rfl, rfl, rfl, rfl, rfl⟩

/-! ### What follows when a copy is stopped -/

variable {j : CopyJob} {b : Binding} {cause : AbortCause}

theorem CopyStopped.state (h : CopyStopped s t j b cause) : t.copy.state = .aborting := by rw [h.copy]; rfl

/-- COPY takes no line again (R109). -/
theorem CopyStopped.settle_lock (h : CopyStopped s t j b cause) : (settle t).locks.copy = none :=
  (FencedActs.refl.settle h.mode).copyUnlocked (.inr h.state) h.lock

/-- A copy stopped whose CANCEL record is taken, not skipped, has not reported it. -/
theorem CopyStopped.not_reported (h : CopyStopped s t j b cause) (hd : s.copy.cancelDone = false)
    (hk : recordSkipped s = false) : t.copy = (s.copy.abort cause false).stepOver := by
  rw [h.copy, hk, hd]; rw [Bool.or_false, ← hd]; rfl

/-- With its CANCEL record asked for and not reported, no abort ends, and only the journal goes on: `J` is what the
controller makes of the request. -/
theorem CopyStopped.settle_of_journal {J : Journal} (h : CopyStopped s t j b cause)
    (hd : s.copy.cancelDone = false) (hk : recordSkipped s = false)
    (hs : settle t = settle (t.setJournal J)) (hn : serveDue (t.setJournal J) = false) :
    (settle t).remap = t.remap ∧ (settle t).journal = J ∧
      (settle t).copy = (s.copy.abort cause false).stepOver := by
  have hc := h.not_reported hd hk
  have ha : abortEndDue (t.setJournal J) = false := by
    simp [abortEndDue, hc, CopyCtx.stepOver, CopyCtx.abort, hd]
  obtain ⟨hr, hj, hx⟩ := settle_keeps_copy (s := t.setJournal J) h.mode hn ha
    (by show t.copy.state ≠ .lineRead; rw [h.state]; simp)
  rw [hs]
  exact ⟨hr, hj, hx.trans hc⟩

theorem recordSkipped_of_taken (hJ : s.journal.TakesRecords) : recordSkipped s = false := by
  simp [recordSkipped, hJ.1, hJ.2.1]

theorem recordSkipped_of_not_online (h : s.journal.store ≠ .online) : recordSkipped s = true := by
  simp [recordSkipped, h]

/-- The CANCEL record is appended, or waits behind the controller's work (R131, R132). -/
theorem CopyStopped.settle_taken (h : CopyStopped s t j b cause) (hd : s.copy.cancelDone = false)
    (hJ : s.journal.TakesRecords) : (settle t).remap = t.remap ∧
      (settle t).journal = s.journal.asked j.cancelRecord ∧
      (settle t).copy = (s.copy.abort cause false).stepOver := by
  have hk := recordSkipped_of_taken hJ
  have hj : t.journal = { s.journal with requests := s.journal.requests ++ [.record j.cancelRecord] } := by
    rw [h.journal, hk]; rfl
  obtain ⟨hs, hn⟩ := settle_of_asked hJ hj
  exact h.settle_of_journal hd hk hs hn

theorem spareHalf_eq (j : Journal) : spareHalf j = if j.live = some .b then .a else .b := by
  unfold spareHalf; cases j.live with
  | none => rfl
  | some x => cases x <;> rfl

/-- With no room in the live half an IDLE controller begins a compaction for the CANCEL record (R132, R133). -/
theorem CopyStopped.settle_full (h : CopyStopped s t j b cause) (hd : s.copy.cancelDone = false)
    (ho : s.journal.store = .online) (hi : s.journal.task = .idle) (hr : s.journal.requests = [])
    (hf : 256 ≤ s.journal.next) : (settle t).remap = t.remap ∧
      (settle t).journal = { s.journal with
        task := .compact .append (if s.journal.live = some .b then .a else .b) .erasing
        requests := [.record j.cancelRecord], snapshot := some (snapshotOf t.remap) } ∧
      (settle t).copy = (s.copy.abort cause false).stepOver := by
  have hk : recordSkipped s = false := by simp [recordSkipped, ho, hi]
  have hj : t.journal = { s.journal with requests := [.record j.cancelRecord] } := by
    rw [h.journal, hk, hr]; rfl
  have hdue : serveDue t = true := by simp [serveDue, hj, hi]
  have hh : serveHead t = beginCompact .append (spareHalf s.journal) t := by
    have : ¬ s.journal.next < 256 := by omega
    simp only [serveHead, hj, ho, if_true, if_neg this]; rfl
  have hs := settle_of_served hdue (by rw [hh]; simp [beginCompact])
  rw [hh, beginCompact, hj, spareHalf_eq] at hs
  exact h.settle_of_journal hd hk hs (by simp [serveDue])

/-! ### The end of an abort -/

/-- A write in flight to a span is one of `s` when the port and the follow-on items are those of `s` and the sweep's
request is that of `s` or gone. -/
theorem spanWriteInFlight_of {n : Nat} (hp : t.port = s.port) (hf : t.host.followOns = s.host.followOns)
    (hc : t.copy.request.presentedIssue = none)
    (hw : t.sweep.request.presentedIssue = s.sweep.request.presentedIssue ∨ t.sweep.request.presentedIssue = none)
    (h : spanWriteInFlight t n = true) : spanWriteInFlight s n = true := by
  simp only [spanWriteInFlight, Bool.or_eq_true, List.any_append, hp, hf, hc] at h ⊢
  rcases hw with hw | hw
  · rw [hw] at h
    rcases h with h | (h | h) | h
    · exact .inl h
    · exact .inr (.inl (.inl h))
    · simp at h
    · exact .inr (.inr h)
  · rw [hw] at h
    rcases h with h | (h | h) | h
    · exact .inl h
    · exact .inr (.inl (.inl h))
    · simp at h
    · simp at h

/-- A write in flight in `s` stays one when what is presented stays presented. -/
theorem spanWriteInFlight_keeps {n : Nat} (hp : t.port = s.port) (hf : t.host.followOns = s.host.followOns)
    (hc : s.copy.request.presentedIssue = none)
    (hw : s.sweep.request.presentedIssue = t.sweep.request.presentedIssue ∨ s.sweep.request.presentedIssue = none)
    (h : spanWriteInFlight s n = true) : spanWriteInFlight t n = true :=
  spanWriteInFlight_of hp.symm hf.symm hc hw h

theorem withdrawHalves_remap (n : Nat) (s : State) : (withdrawHalves n s).remap = s.remap := by
  refine foldl_keeps (g := State.remap) (fun u a => ?_) _ _
  unfold withdrawHalf finishHalf answerWrite; split
  · split
    · split
      · rfl
      · dsimp only; split <;> rfl
    · rfl
  · rfl

/-- With its CANCEL record skipped and no write of its slot in flight, the abort ends in the step (R21, R109). -/
theorem CopyStopped.settle_ends (h : CopyStopped s t j b cause) (hj : s.copy.job = some j)
    (hk : recordSkipped s = true) (hd : serveDue s = false)
    (hn : spanWriteInFlight t (s.geom.slotSpan j.slot) = false) :
    (settle t).remap[j.entry] = none ∧ (settle t).copy = idleCopy false := by
  have hl : t.journal = s.journal := by rw [h.journal, hk]; rfl
  have hd' : serveDue t = false := by rw [serveDue, hl]; exact hd
  have hj' : t.copy.job = some j := by rw [h.copy]; exact hj
  have ha : abortEndDue t = true := by
    have hc : t.copy.stepInFlight = false ∧ t.copy.cancelDone = true := by
      rw [h.copy, hk]; exact ⟨rfl, Bool.or_true _⟩
    simp [abortEndDue, h.state, hc, hj', h.geom, hn]
  have he : abortEndIfDue t = finishAbort j t := by
    rw [abortEndIfDue, if_pos ha, hj']
  have hc : (finishAbort j t).copy = idleCopy false := rfl
  have hr : (finishAbort j t).remap[j.entry] = none := by
    change (freeJobEntry j (withdrawHalves _ t).remap)[j.entry] = none
    rw [withdrawHalves_remap]
    have hu : underCopy t.remap[j.entry] = true := by rw [h.entry]; rfl
    rw [freeJobEntry, if_pos hu, vector_set_getElem, if_pos rfl]
  generalize finishAbort j t = f at he hc hr
  obtain ⟨q, hx, hq⟩ := copyReadIfDue_frame f
  obtain ⟨r, hy⟩ := sweepReadIfDue_frame (f.setCopy { f.copy with request := q })
  have hq := hq (by rw [hc]; simp [idleCopy])
  rw [settle_of_fenced h.mode hd', he, hx, hy, hq]
  exact ⟨hr, hc⟩

/-- With its CANCEL record skipped and a write of its slot in flight, the abort waits for that write (R21). -/
theorem CopyStopped.settle_waits (h : CopyStopped s t j b cause) (hj : s.copy.job = some j)
    (hk : recordSkipped s = true) (hd : serveDue s = false)
    (hn : spanWriteInFlight t (s.geom.slotSpan j.slot) = true) :
    (settle t).remap = t.remap ∧ (settle t).copy = t.copy := by
  have hl : t.journal = s.journal := by rw [h.journal, hk]; rfl
  have hd' : serveDue t = false := by rw [serveDue, hl]; exact hd
  have hj' : t.copy.job = some j := by rw [h.copy]; exact hj
  have ha : abortEndDue t = false := by simp [abortEndDue, hj', h.geom, hn]
  obtain ⟨hr, -, hc⟩ := settle_keeps_copy h.mode hd' ha (by rw [h.state]; simp)
  exact ⟨hr, hc⟩

end Sys2Proof.Machine

namespace Sys2Proof.Machine

/-! ## A copy that the fence does not stop, and the answers to the host -/

variable {s t u v w : State} {i : Issue}

/-! ### A copy that the fence leaves with its step in flight, or leaves alone -/

/-- No abort of this copy can end yet: it is in none, its step is in flight, or its CANCEL record is not reported
(R21). -/
def CopyCtx.goesOn (c : CopyCtx) : Prop := c.state ≠ .aborting ∨ c.stepInFlight = true ∨ c.cancelDone = false

theorem CopyCtx.goesOn.abortEndDue (h : s.copy.goesOn) : abortEndDue s = false := by
  rcases h with h | h | h <;> simp [Machine.abortEndDue, h]

/-- A copy in COPYING with its record or request under way becomes ABORTING with that as the step in flight, and
goes on no further in the step (R6, R108, R110). -/
theorem settle_failed_inFlight {j : CopyJob} {b : Binding} (hi : i.origin.isCopy = false)
    (hd : serveDue s = false) (hm : s.mode ≠ .fenced) (hj : s.copy.job = some j) (hb : s.remap[j.entry] = some b)
    (hs : b.stage = .copying) (hc : inCopying s.copy = true)
    (hf : s.copy.state = .beginning ∨ s.copy.request ≠ .absent) :
    (settle (failedForGood i s)).remap = s.remap.set j.entry (some { b with stage := .aborting }) ∧
      (settle (failedForGood i s)).journal = s.journal ∧
      (settle (failedForGood i s)).copy = s.copy.abort .fence true := by
  have h : BesideCopy (((fenceTold i.req.line s).aborted .fence true).setSweep s.sweep.fenced) (failedForGood i s) := by
    rw [failedForGood, enterFence_of_inFlight _ hm hc hf]; exact tellFailed_besideCopy hi _
  have hcopy : (failedForGood i s).copy = s.copy.abort .fence true := h.copy
  have hjournal : (failedForGood i s).journal = s.journal := h.journal
  have hremap : (failedForGood i s).remap = abortEntry s.copy s.remap := h.remap
  have ha : abortEndDue (failedForGood i s) = false :=
    CopyCtx.goesOn.abortEndDue (.inr (.inl (by rw [hcopy]; rfl)))
  obtain ⟨hr, hl, hx⟩ := settle_keeps_copy (failed_mode i s) (by rw [serveDue, hjournal]; exact hd) ha
    (by rw [hcopy]; simp [CopyCtx.abort])
  exact ⟨hr.trans (hremap.trans (abortEntry_eq hj hb hs)), hl.trans hjournal, hx.trans hcopy⟩

/-- A copy that is in no line's cycle is left as it is by entry to FENCED (R6, R20, R110). -/
theorem enterFence_besideCopy (p : PhysLine) (hc : inCopying s.copy = false) :
    (enterFence p s).remap = s.remap ∧ (enterFence p s).journal = s.journal ∧ (enterFence p s).copy = s.copy ∧
      (enterFence p s).host = s.host := by
  by_cases hm : s.mode = .fenced
  · rw [enterFence_of_fenced p hm]; exact ⟨rfl, rfl, rfl, rfl⟩
  · rw [enterFence_of_not_copying p hm hc]; exact ⟨rfl, rfl, rfl, rfl⟩

/-- A copy in IDLE or COMMITTING, or an abort with its step in flight, goes on (R6, R20). -/
theorem settle_failed_goesOn (hi : i.origin.isCopy = false) (hd : serveDue s = false)
    (hc : s.copy.state = .idle ∨ s.copy.state = .committing ∨
      s.copy.state = .aborting ∧ s.copy.stepInFlight = true) :
    (settle (failedForGood i s)).remap = s.remap ∧ (settle (failedForGood i s)).journal = s.journal ∧
      (settle (failedForGood i s)).copy = s.copy := by
  have hn : inCopying s.copy = false ∧ s.copy.goesOn ∧ s.copy.state ≠ .lineRead := by
    rcases hc with hc | hc | ⟨hc, hf⟩
    · simp [inCopying, CopyCtx.goesOn, hc]
    · simp [inCopying, CopyCtx.goesOn, hc]
    · simp [inCopying, CopyCtx.goesOn, hc, hf]
  obtain ⟨hn, hg, hl⟩ := hn
  have h := tellFailed_besideCopy hi (enterFence i.req.line s)
  obtain ⟨er, ej, ec, -⟩ := enterFence_besideCopy i.req.line hn
  have hcopy : (failedForGood i s).copy = s.copy := h.copy.trans ec
  have hjournal : (failedForGood i s).journal = s.journal := h.journal.trans ej
  obtain ⟨hr, hj, hx⟩ := settle_keeps_copy (failed_mode i s) (by rw [serveDue, hjournal]; exact hd)
    (CopyCtx.goesOn.abortEndDue (by rw [hcopy]; exact hg)) (by rw [hcopy]; exact hl)
  exact ⟨hr.trans (h.remap.trans er), hj.trans hjournal, hx.trans hcopy⟩

/-! ### The host told -/

theorem enterFence_host (p : PhysLine) (s : State) : s.host.Requeued (enterFence p s).host := by
  by_cases hm : s.mode = .fenced
  · rw [enterFence_of_fenced p hm]; exact .refl _
  · exact (enterFence_fenced p hm).host

/-- What is sent stays sent. -/
theorem Acts.keeps_sent {r : UpResponse} (h : Acts s t) (hr : r ∈ s.host.sent) : r ∈ t.host.sent := by
  refine h.keeps (P := fun u => r ∈ u.host.sent) (fun u v ha hu => ?_) hr
  rcases ha.sends with hs | ⟨x, rfl, -⟩
  · rw [hs]; exact hu
  · exact List.mem_append_left _ hu

/-- A host read answered in FENCED, and what then follows: its tag is FREE and POISONED with CONTAIN is sent (R5,
R47). -/
theorem answered_read {tag : HostTag} (hv : v.mode = .fenced)
    (hf : FencedActs (answerRead tag .poisoned zeroLine v) t)
    (ha : Acts (answerRead tag .poisoned zeroLine v) t) :
    t.host.recs[tag] = none ∧ .readData tag .poisoned zeroLine true ∈ t.host.sent := by
  have hc : contain v = true := by simp [contain, hv]
  refine ⟨hf.freeRecord ?_, ha.keeps_sent ?_⟩
  · show (v.host.recs.set tag none)[tag] = none
    rw [vector_set_getElem, if_pos rfl]
  · show _ ∈ v.host.sent ++ [.readData tag .poisoned zeroLine (contain v)]
    rw [hc]; exact List.mem_append_right _ (List.mem_singleton_self _)

/-- A failed host read of this era is answered once the bridge is FENCED (R47). -/
theorem failed_hostRead {tag : HostTag} (hi : i.origin = .hostRead tag s.host.era) :
    failedForGood i s = answerRead tag .poisoned zeroLine (enterFence i.req.line s) := by
  have he := (enterFence_host i.req.line s).era
  rw [failedForGood, tellFailed_of_host (by rw [hi]; rfl) (by rw [hi]; rfl), hostRequestFailed, hi]
  exact if_pos he.symm

/-- A failed retry of this era is answered and its ladder ends (R47). -/
theorem failed_ladderRetry {k : Fin 4} {tag : HostTag} (hi : i.origin = .ladderRetry k tag s.host.era) :
    failedForGood i s = endLadder k (answerRead tag .poisoned zeroLine (enterFence i.req.line s)) := by
  have he := (enterFence_host i.req.line s).era
  rw [failedForGood, tellFailed_of_host (by rw [hi]; rfl) (by rw [hi]; rfl), hostRequestFailed, hi]
  exact if_pos he.symm

/-- A host read, or a ladder's retry, that fails for good is answered POISONED with CONTAIN (R5, R47). -/
theorem settle_failed_read {tag : HostTag} (hi : i.origin = .hostRead tag s.host.era ∨
      ∃ k, i.origin = .ladderRetry k tag s.host.era) :
    (settle (failedForGood i s)).host.recs[tag] = none ∧
      .readData tag .poisoned zeroLine true ∈ (settle (failedForGood i s)).host.sent := by
  have hm := enterFence_mode i.req.line s
  have hf := settle_failed i s
  rcases hi with hi | ⟨k, hi⟩
  · rw [failed_hostRead hi] at hf ⊢
    exact answered_read hm hf Acts.refl.settle
  · rw [failed_ladderRetry hi] at hf ⊢
    exact answered_read hm ((FencedActs.refl.endLadder k).trans hf) (Acts.refl.endLadder k).settle

/-- The ladder of a retry that fails for good is free and has left its line (R47). -/
theorem settle_failed_ladder {k : Fin 4} {tag : HostTag} (hi : i.origin = .ladderRetry k tag s.host.era) :
    (settle (failedForGood i s)).host.ladders[k] = none ∧
      (settle (failedForGood i s)).locks.lineOf (.ladder k) = none := by
  have hf := settle_failed i s
  refine ⟨hf.freeLadder ?_, hf.unlocked (by simp) ?_⟩
  · rw [failed_ladderRetry hi, endLadder, (removeHolder_requeued _ _).ladders]
    show ((enterFence i.req.line s).host.ladders.set k none)[k] = none
    rw [vector_set_getElem, if_pos rfl]
  · rw [failed_ladderRetry hi, endLadder, removeHolder_locks, Locks.setLine_lineOf, if_pos rfl]

/-! ### Host writes -/

/-- The half of a write beside the one named. -/
def HostRec.besideHalf (r : HostRec) : Half → Option HalfResult
  | .source => r.slotHalf
  | .slot => r.sourceHalf

/-- A half that fails ends its write DROPPED, unless the other half is PENDING (R48, R49). -/
theorem finishHalf_failed {tag : HostTag} {half : Half} {r : HostRec} (hr : s.host.recs[tag] = some r) :
    finishHalf tag half .failed s = if r.besideHalf half = some .pending
      then setRecord tag (some (r.setHalf half .failed)) s else answerWrite tag .dropped s := by
  have hr : s.host.recs[tag] = some r := hr
  have hs : (r.setHalf half .failed).halvesSettled = (r.besideHalf half != some .pending) := by
    cases half <;> simp [HostRec.setHalf, HostRec.halvesSettled, HostRec.besideHalf]
  have ho : (r.setHalf half .failed).writeOutcome = .dropped := by
    cases half <;> simp [HostRec.setHalf, HostRec.writeOutcome]
  rw [finishHalf, hr]
  dsimp only
  rw [hs, ho]
  by_cases h : r.besideHalf half = some .pending <;> simp [h]

/-- A failed half of a host write of this era ends once the bridge is FENCED (R48, R49). -/
theorem failed_hostWrite {tag : HostTag} {half : Half} (hi : i.origin = .hostWrite tag half s.host.era) :
    failedForGood i s = finishHalf tag half .failed (enterFence i.req.line s) := by
  have he := (enterFence_host i.req.line s).era
  rw [failedForGood, tellFailed_of_host (by rw [hi]; rfl) (by rw [hi]; rfl), hostRequestFailed, hi]
  exact if_pos he.symm

/-- A host write with no other half PENDING is answered DROPPED with CONTAIN (R5, R48, R49). -/
theorem settle_failed_write {tag : HostTag} {half : Half} {r : HostRec}
    (hi : i.origin = .hostWrite tag half s.host.era) (hr : s.host.recs[tag] = some r)
    (ho : r.besideHalf half ≠ some .pending) :
    (settle (failedForGood i s)).host.recs[tag] = none ∧
      .writeDone tag .dropped true ∈ (settle (failedForGood i s)).host.sent := by
  obtain ⟨p, hp⟩ := (enterFence_host i.req.line s).taken tag r hr
  have hb : ({ r with place := p } : HostRec).besideHalf half ≠ some .pending := by cases half <;> exact ho
  have hf : failedForGood i s = answerWrite tag .dropped (enterFence i.req.line s) := by
    rw [failed_hostWrite hi, finishHalf_failed hp, if_neg hb]
  have hc : contain (enterFence i.req.line s) = true := by simp [contain, enterFence_mode]
  refine ⟨(settle_failed i s).freeRecord ?_, (Acts.refl (s := failedForGood i s)).settle.keeps_sent ?_⟩
  · rw [hf]
    show ((enterFence i.req.line s).host.recs.set tag none)[tag] = none
    rw [vector_set_getElem, if_pos rfl]
  · rw [hf]
    show _ ∈ (enterFence i.req.line s).host.sent ++ [.writeDone tag .dropped (contain (enterFence i.req.line s))]
    rw [hc]; exact List.mem_append_right _ (List.mem_singleton_self _)

/-- A host write whose other half is PENDING waits, its half FAILED, where the fence leaves its record (R49). -/
theorem failed_write_pending {tag : HostTag} {half : Half} {r : HostRec}
    (hi : i.origin = .hostWrite tag half s.host.era) (hr : (enterFence i.req.line s).host.recs[tag] = some r)
    (ho : r.besideHalf half = some .pending) :
    failedForGood i s = setRecord tag (some (r.setHalf half .failed)) (enterFence i.req.line s) := by
  rw [failed_hostWrite hi, finishHalf_failed hr, if_pos ho]

/-- With no abort to end, and at most a record to take, settling in FENCED leaves the host port alone. -/
theorem settle_host (hm : s.mode = .fenced) (hg : s.copy.goesOn) (hj : serveDue s = false ∨
      ∃ (J : Journal) (r : JRecord), J.TakesRecords ∧
        s.journal = { J with requests := J.requests ++ [.record r] }) : (settle s).host = s.host := by
  have quiet : ∀ u : State, u.mode = .fenced → u.copy.goesOn → serveDue u = false → (settle u).host = u.host := by
    intro u hm hg hd
    obtain ⟨q, r, hx, -⟩ := settle_of_nothing_due hm hd hg.abortEndDue
    rw [hx]; rfl
  rcases hj with hd | ⟨J, r, hJ, hj⟩
  · exact quiet s hm hg hd
  · obtain ⟨hs, hd⟩ := settle_of_asked hJ hj
    rw [hs]; exact quiet (s.setJournal (J.asked r)) hm hg hd

/-- With nothing held and no head waiting, leaving a line moves no request (R60). -/
theorem removeHolder_host (k : Holder) (hh : s.hold = []) (hw : s.host.headWaits = false) :
    (removeHolder k s).host = s.host := by
  have recheck : ∀ u : State, u.host = s.host → (recheckHead u).host = s.host := by
    intro u hu; rw [recheckHead, hu, hw]; exact hu
  unfold removeHolder; split
  · rfl
  · dsimp only; split
    · rfl
    · split
      · refine recheck _ ?_
        simp [releaseLine, hh, placeAll]
      · exact recheck _ rfl

/-- Entry to FENCED takes COPY off no line and ends no abort: the copy engine has no copy, or one past its lines, or
a step in flight (R6, R108, R110). -/
def CopyCtx.keepsLine (c : CopyCtx) : Prop :=
  c.state = .idle ∨ c.state = .committing ∨ c.state = .beginning ∨ inCopying c = true ∧ c.request ≠ .absent ∨
    c.state = .aborting ∧ c.stepInFlight = true

/-- Entry to FENCED that takes COPY off no line leaves the host port as it was, with no abort to end. -/
theorem enterFence_host_of_keepsLine (p : PhysLine) (hc : s.copy.keepsLine) :
    (enterFence p s).host = s.host ∧ (enterFence p s).copy.goesOn ∧ (enterFence p s).journal = s.journal := by
  have hg : s.copy.goesOn := by
    rcases hc with hc | hc | hc | ⟨hc, -⟩ | ⟨-, hc⟩
    · exact .inl (by simp [hc])
    · exact .inl (by simp [hc])
    · exact .inl (by simp [hc])
    · exact .inl fun ha => by simp [inCopying, ha] at hc
    · exact .inr (.inl hc)
  cases hn : inCopying s.copy with
  | false =>
    obtain ⟨-, ej, ec, eh⟩ := enterFence_besideCopy p hn
    exact ⟨eh, by rw [ec]; exact hg, ej⟩
  | true =>
    by_cases hm : s.mode = .fenced
    · rw [enterFence_of_fenced p hm]; exact ⟨rfl, hg, rfl⟩
    · have hf : s.copy.state = .beginning ∨ s.copy.request ≠ .absent := by
        rcases hc with hc | hc | hc | ⟨-, hc⟩ | ⟨hc, -⟩
        · simp [inCopying, hc] at hn
        · simp [inCopying, hc] at hn
        · exact .inl hc
        · exact .inr hc
        · simp [inCopying, hc] at hn
      rw [enterFence_of_inFlight p hm hn hf]
      exact ⟨rfl, .inr (.inl rfl), rfl⟩

/-- After entry to FENCED from LINE READ with nothing held and a journal that takes records, the host port is as it
was, and at most the CANCEL record waits. -/
theorem enterFence_host_of_lineRead (p : PhysLine) (hc : s.copy.state = .lineRead)
    (hd : s.copy.cancelDone = false) (hJ : s.journal.TakesRecords) (hh : s.hold = [])
    (hw : s.host.headWaits = false) :
    (enterFence p s).host = s.host ∧ (enterFence p s).copy.goesOn ∧
      ((enterFence p s).journal = s.journal ∨ ∃ r, (enterFence p s).journal =
        { s.journal with requests := s.journal.requests ++ [.record r] }) := by
  have hn : inCopying s.copy = true := by simp [inCopying, hc]
  by_cases hm : s.mode = .fenced
  · rw [enterFence_of_fenced p hm]; exact ⟨rfl, .inl (by simp [hc]), .inl rfl⟩
  by_cases hr : s.copy.request = .absent
  · obtain ⟨J, C, hx, hk⟩ := stepEnded_frame ((fenceTold p s).aborted .fence false)
    obtain ⟨hC, hJ'⟩ := hk (recordSkipped_of_taken (s := (fenceTold p s).aborted .fence false) hJ)
    rw [enterFence_of_waiting p hm hn (by simp [hc]) hr, hx]
    have hJ' : J = s.journal ∨ ∃ r, J = { s.journal with requests := s.journal.requests ++ [.record r] } := hJ'
    have hH : (removeHolder .copy ((fenceTold p s).aborted .fence false)).host = s.host :=
      removeHolder_host .copy (s := (fenceTold p s).aborted .fence false) hh hw
    refine ⟨by simpa using hH, .inr (.inr ?_), by simpa using hJ'⟩
    show C.cancelDone = false
    rw [hC]; exact hd
  · obtain ⟨eh, eg, ej⟩ := enterFence_host_of_keepsLine p (.inr (.inr (.inr (.inl ⟨hn, hr⟩))))
    exact ⟨eh, eg, .inl ej⟩

/-- A host write whose other half is PENDING waits with its half FAILED, and nothing else of the host port changes,
when no abort ends and no line is left in the step (R49). -/
theorem settle_failed_write_pending {tag : HostTag} {half : Half} {r : HostRec}
    (hi : i.origin = .hostWrite tag half s.host.era) (hr : s.host.recs[tag] = some r)
    (ho : r.besideHalf half = some .pending) (hd : serveDue s = false)
    (hc : s.copy.keepsLine ∨ s.copy.state = .lineRead ∧ s.copy.cancelDone = false ∧ s.journal.TakesRecords ∧
      s.hold = [] ∧ s.host.headWaits = false) :
    (settle (failedForGood i s)).host =
      { s.host with recs := s.host.recs.set tag (some (r.setHalf half .failed)) } := by
  have hv : (enterFence i.req.line s).host = s.host ∧ (enterFence i.req.line s).copy.goesOn ∧
      (serveDue (enterFence i.req.line s) = false ∨ ∃ (J : Journal) (r : JRecord), J.TakesRecords ∧
        (enterFence i.req.line s).journal = { J with requests := J.requests ++ [.record r] }) := by
    rcases hc with hc | ⟨hc, hcd, hJ, hh, hw⟩
    · obtain ⟨eh, eg, ej⟩ := enterFence_host_of_keepsLine i.req.line hc
      exact ⟨eh, eg, .inl (by rw [serveDue, ej]; exact hd)⟩
    · obtain ⟨eh, eg, ej | ⟨x, ej⟩⟩ := enterFence_host_of_lineRead i.req.line hc hcd hJ hh hw
      · exact ⟨eh, eg, .inl (by rw [serveDue, ej]; exact hd)⟩
      · exact ⟨eh, eg, .inr ⟨_, x, hJ, ej⟩⟩
  obtain ⟨eh, eg, ej⟩ := hv
  have hm := enterFence_mode i.req.line s
  rw [failed_write_pending hi (by rw [eh]; exact hr) ho]
  generalize enterFence i.req.line s = v at eh eg ej hm ⊢
  rw [settle_host (s := setRecord tag (some (r.setHalf half .failed)) v) hm eg ej, ← eh]
  rfl

end Sys2Proof.Machine

namespace Sys2Proof.Machine

/-! ## A reissue that ends in ERROR -/

variable {s t u v w : State} {i : Issue}

/-! ### The row that ends a reissue -/

/-- A response that ends a request in ERROR is its error (R67, R70). -/
theorem completeIssue_of_error {c : Condition} (x : LineData) (h : i.req.endsInError c = true) (s : State) :
    completeIssue i c x s = requestError i false s := by
  unfold completeIssue
  cases hb : i.req.body with
  | read => cases c <;> simp_all [DownReq.endsInError, readResult]
  | write d m p => simp_all [DownReq.endsInError]

/-- A reissue that ends in ERROR offers MEMORY_ERROR, and fences the bridge (R73). -/
theorem requestError_of_reissue (h : i.reissue = true) (late : Bool) (s : State) :
    requestError i late s =
      failedForGood i (offer (lineEvent .memoryError .port i.req.line (some (if late then 4 else 3))) s) := by
  cases late <;> simp [requestError, h, errorValue, failedForGood]

/-- The state told of an error: other tags and events (R71, R73). -/
def State.told (s : State) (P : Port) (E : Events) : State := (s.setPort P).setEvents E

/-- The row that ends the reissue of an IN USE tag, by a response or by the tag's timeout, settles the failure of the
request in the state told of it, which differs from `s` in its tags and its events, with the FAULT flag set
(R70, R71, R73). -/
theorem exec_second_error {d : PortTag} {c : Condition} {late : Bool} {told : State} (x : LineData)
    (ht : s.port.tags[d] = .inUse i) (hr : i.reissue = true) (hc : late = false → i.req.endsInError c = true)
    (htold : told = offer (lineEvent .memoryError .port i.req.line (some (if late then 4 else 3)))
      (if late then offer (lineEvent .tagQuarantined .port i.req.line (some d.val))
          { s with port := { s.port with tags := s.port.tags.set d .quarantined } }
        else { s with port := { s.port with tags := s.port.tags.set d .free } })) :
    exec (if late then .tagTimeout d else .downstreamResponse d c x) s = .next (settle (failedForGood i told)) ∧
      told.events.flags.getLsbD 5 = true ∧ ∃ P E, told = s.told P E := by
  have hflag : told.events.flags.getLsbD 5 = true := by rw [htold]; exact offer_sets_flag _ _
  have ht : s.port.tags[d] = .inUse i := ht
  cases late with
  | true =>
    refine ⟨?_, hflag, _, _, htold⟩
    show Host.Outcome.next (portTimeout d s) = _
    rw [portTimeout, ht]
    dsimp only
    rw [requestError_of_reissue hr, htold]
    rfl
  | false =>
    refine ⟨?_, hflag, _, _, htold⟩
    show Host.Outcome.next (portResponse d c x s) = _
    rw [portResponse_of_inUse c x ht, completeIssue_of_error x (hc rfl), requestError_of_reissue hr, htold]
    rfl

/-! ### The copy's part, as its statement names it -/

/-- The ways in which the fence stops a copy in the step: its own request failed, or it waits for a quiet line when
another's does (R103, R109, R110). -/
theorem failed_copy_stopped {j : CopyJob} {b : Binding} {cause : AbortCause} (hj : s.copy.job = some j)
    (hb : s.remap[j.entry] = some b)
    (hc : i.origin.isCopy = true ∧ s.copy.request = .atMemory ∧
        (s.mode ≠ .fenced ∧ inCopying s.copy = true ∧ b.stage = .copying ∧ cause = .fence ∨
          s.copy.state = .aborting ∧ b.stage = .aborting ∧ s.copy.cause = some cause) ∨
      i.origin.isCopy = false ∧ s.mode ≠ .fenced ∧ s.copy.state = .lineRead ∧ s.copy.request = .absent ∧
        b.stage = .copying ∧ cause = .fence) :
    CopyStopped s (failedForGood i s) j b cause ∧ s.copy.request.presentedIssue = none := by
  rcases hc with ⟨hi, hr, hc⟩ | ⟨hi, hm, hs, hr, hb', rfl⟩
  · exact ⟨failed_copy_own hi hj hb hr hc, by rw [hr]; rfl⟩
  · exact ⟨failed_copy_waiting hi hj hb hm hs hr hb', by rw [hr]; rfl⟩

/-- The sweep's request after a failure: gone when it was the sweep's own, else as it was (R120, R125). -/
theorem failed_sweep_request (i : Issue) (s : State) : (failedForGood i s).sweep.request =
    if i.origin.isSweep then .absent else s.sweep.request := by
  have hf : (enterFence i.req.line s).sweep.request = s.sweep.request := by
    by_cases hm : s.mode = .fenced
    · rw [enterFence_of_fenced _ hm]
    · rw [(enterFence_fenced _ hm).sweep, Sweep.fenced_request]
  rw [failedForGood, tellFailed_sweep]
  split
  · rfl
  · exact hf

section

variable {j : CopyJob} {b : Binding} {cause : AbortCause}

/-- The writes to a span in flight after a failure are those in flight before, when the copy engine presents
nothing. -/
theorem CopyStopped.spanWrite_of (h : CopyStopped s (failedForGood i s) j b cause) {n : Nat}
    (hn : spanWriteInFlight s n = false) : spanWriteInFlight (failedForGood i s) n = false := by
  by_contra hx
  have hp : (failedForGood i s).copy.request.presentedIssue = none := by rw [h.copy]; rfl
  refine absurd (spanWriteInFlight_of h.port h.followOns hp ?_ (by simpa using hx)) (by simp [hn])
  rw [failed_sweep_request]
  split
  · exact .inr rfl
  · exact .inl rfl

theorem CopyStopped.spanWrite_keeps (h : CopyStopped s (failedForGood i s) j b cause) {n : Nat}
    (hp : s.copy.request.presentedIssue = none) (hi : i.origin.isSweep = true → s.sweep.request = .atMemory)
    (hn : spanWriteInFlight s n = true) : spanWriteInFlight (failedForGood i s) n = true := by
  refine spanWriteInFlight_keeps h.port h.followOns hp ?_ hn
  rw [failed_sweep_request]
  split
  · rename_i hs; exact .inr (by rw [hi hs]; rfl)
  · exact .inl rfl

end

/-- Settles O48. The row settles the failure in the state told of it (`exec_second_error`); each clause is then what
the fence, the originator told and the settling come to for one block. -/
theorem secondErrorsFence : Obligations.SecondErrorsFence := by
  intro s d x c i late ht hr hc told htold
  obtain ⟨hx, hflag, P, E, rfl⟩ := exec_second_error x ht hr hc htold
  clear htold
  obtain ⟨hmode, hport, hretire, hflags⟩ := settle_failed_frame i (s.told P E)
  refine ⟨_, hx, hmode, hport, hretire, hflags 5 hflag,
    fun hm => settle_failed_records (s := s.told P E) i hm,
    fun hm hw => settle_failed_sweep_waiting (s := s.told P E) i hm hw,
    fun hm hl hs => settle_failed_sweep_line (s := s.told P E) hm hl hs,
    fun hs => settle_failed_sweep_own hs _, fun j b cause hj hb hcd hcase => ?_,
    fun hi hd => ⟨fun j b hm hj hb hs hc => ?_, fun hc => settle_failed_goesOn (s := s.told P E) hi hd hc⟩,
    fun tag hi => settle_failed_read (s := s.told P E) hi, fun k tag hi => settle_failed_ladder (s := s.told P E) hi,
    fun tag half r other hi hrec ho => ⟨fun hn => ?_, fun hp hm u hu hset => ?_, fun hp hd hc => ?_⟩⟩
  · obtain ⟨hs, hp⟩ := failed_copy_stopped (s := s.told P E) hj hb hcase
    refine ⟨hs.settle_lock, fun hJ => ?_, fun hon hid hreq hfull => ?_,
      fun hoff hd => ⟨fun hn => ?_, fun hn hsw => ?_⟩⟩
    · obtain ⟨er, ej, ec⟩ := hs.settle_taken hcd hJ
      exact ⟨by rw [er]; exact hs.entry, ej, ec⟩
    · obtain ⟨er, ej, ec⟩ := hs.settle_full hcd hon hid hreq hfull
      exact ⟨by rw [er]; exact hs.entry, ec, by rw [er]; exact ej⟩
    · have hk := recordSkipped_of_not_online (s := s.told P E) hoff
      exact hs.settle_ends hj hk hd (hs.spanWrite_of hn)
    · have hk := recordSkipped_of_not_online (s := s.told P E) hoff
      obtain ⟨er, ec⟩ := hs.settle_waits hj hk hd (hs.spanWrite_keeps hp hsw hn)
      refine ⟨by rw [er]; exact hs.entry, ec.trans (hs.copy.trans ?_)⟩
      rw [hk, Bool.or_true]; rfl
  · have hn : inCopying s.copy = true := by
      rcases hc with hc | ⟨hc, -⟩
      · simp [inCopying, hc]
      · exact hc
    exact settle_failed_inFlight (s := s.told P E) hi hd hm hj hb hs hn (hc.imp id And.right)
  · refine settle_failed_write (s := s.told P E) (half := half) hi hrec ?_
    subst ho; cases half <;> exact hn
  · have hb : r.besideHalf half = some .pending := by subst ho; cases half <;> exact hp
    have he : failedForGood i (s.told P E) = u := by
      have hf : enterFence i.req.line (s.told P E) = s.told P E :=
        enterFence_of_fenced _ hm
      rw [failed_write_pending (s := s.told P E) hi (by rw [hf]; exact hrec) hb, hf, hu]
      cases half <;> rfl
    rw [he, settle_of_settled hset]
  · have hb : r.besideHalf half = some .pending := by subst ho; cases half <;> exact hp
    have hk : s.copy.keepsLine ∨ s.copy.state = .lineRead ∧ s.copy.cancelDone = false ∧
        s.journal.TakesRecords ∧ s.hold = [] ∧ s.host.headWaits = false := by
      unfold CopyCtx.keepsLine; simpa only [or_assoc] using hc
    rw [settle_failed_write_pending (s := s.told P E) hi hrec hb hd hk]
    cases half <;> rfl

end Sys2Proof.Machine

namespace Sys2Proof.Machine

/-! ## Spans and slots are bound once

What each act does to the Remap Table is one of two things: entries keep their span and slot or go (`setRemap`), or a
FREE entry takes a span and a slot that nothing else holds (`bind`). Both keep `BoundOnce`. -/

variable {s t u v : State}

/-! ### What the checks before a binding say -/

/-- A span admitted to the queue is usable, not queued and not bound, and the queue has room (R90). -/
theorem admission_taken {n : Nat} (h : admission s n = .taken) :
    s.geom.usable n = true ∧ (∀ q ∈ s.retire, q.span ≠ n) ∧ (∀ i : Fin 128, ∀ b ∈ s.remap[i], b.span ≠ n) ∧
      s.retire.length < 8 := by
  unfold admission at h
  split at h
  · cases h
  · rename_i hu
    split at h
    · cases h
    · rename_i hd
      simp only [Bool.or_eq_true, not_or, Bool.not_eq_true, Option.isSome_eq_false_iff,
        Option.isNone_iff_eq_none, isQueued, List.any_eq_false, beq_iff_eq] at hd
      split at h
      · exact ⟨by simpa using hu, hd.1, bindingOf_eq_none_iff.1 hd.2, ‹_›⟩
      · cases h

/-- An ASSIGN record that passes its checks names a usable span and a slot of the pool, both unbound (R22). -/
theorem assignCheck_eq_zero {r : JRecord} (h : assignCheck s r = 0) :
    s.geom.usable r.span = true ∧ r.slot < s.geom.spareCount ∧
      (∀ i : Fin 128, ∀ b ∈ s.remap[i], b.span ≠ r.span) ∧ ∀ i : Fin 128, ∀ b ∈ s.remap[i], b.slot ≠ r.slot := by
  rw [← bindingOf_eq_none_iff, ← bindingOfSlot_eq_none_iff]
  unfold assignCheck at h
  split at h
  · cases h
  · split at h
    · cases h
    · split at h
      · cases h
      · split at h
        · cases h
        · simp_all

/-- A free slot is in the pool and no entry holds it (R16, R26). -/
theorem freeSlot_some {g : Geometry} {r : Remap} {k : Nat} (h : freeSlot g r = some k) :
    k < g.spareCount ∧ ∀ i : Fin 128, ∀ b ∈ r[i], b.slot ≠ k := by
  have hf := List.find?_some h
  rw [Option.isNone_iff_eq_none, bindingOfSlot_eq_none_iff] at hf
  exact ⟨List.mem_range.1 (List.mem_of_find?_eq_some h), hf⟩

/-- A FREE entry holds no binding (R14). -/
theorem freeEntry_some {r : Remap} {e : Fin 128} (h : freeEntry r = some e) : r[e] = none := by
  simpa using ((lowestIndex_eq_some_iff _ _ _).1 h).1

/-! ### What keeps the bindings unique -/

/-- `BoundOnce` speaks of the tables, the geometry, the mode, and what the copy engine and the journal do. -/
theorem BoundOnce.congr (h : BoundOnce s) (hr : t.remap = s.remap) (hg : t.geom = s.geom) (hq : t.retire = s.retire)
    (hc : t.copy = s.copy) (hj : t.journal = s.journal) (hm : t.mode = s.mode) : BoundOnce t := by
  obtain ⟨h1, h2, h3, h4, h5, h6, h7, h8, h9, h10⟩ := h
  constructor <;> simp only [hr, hg, hq, hc, hj, hm] <;> assumption

/-- Entries that keep their span and slot, or go, stay bound once. -/
theorem BoundOnce.setRemap {r : Remap} (h : BoundOnce s)
    (hr : ∀ i : Fin 128, ∀ b ∈ r[i], ∃ c ∈ s.remap[i], b.span = c.span ∧ b.slot = c.slot ∧
      (b.stage ≠ .active → c.stage ≠ .active)) : BoundOnce (s.setRemap r) where
  entries i j b hb c hc hbc := by
    obtain ⟨b', hb', hbs, hbk, -⟩ := hr i b hb
    obtain ⟨c', hc', hcs, hck, -⟩ := hr j c hc
    exact h.entries i j b' hb' c' hc' (by rwa [← hbs, ← hcs, ← hbk, ← hck])
  usable i b hb := by
    obtain ⟨c, hc, hs, -⟩ := hr i b hb
    exact hs ▸ h.usable i c hc
  slots i b hb := by
    obtain ⟨c, hc, -, hk, -⟩ := hr i b hb
    exact hk ▸ h.slots i c hc
  queue := h.queue
  queueUsable := h.queueUsable
  apart q hq i b hb := by
    obtain ⟨c, hc, hs, -⟩ := hr i b hb
    exact hs ▸ h.apart q hq i c hc
  oneCopy i b hb hn := by
    obtain ⟨c, hc, -, -, ha⟩ := hr i b hb
    exact h.oneCopy i c hc (ha hn)
  startMode := h.startMode
  startQueue := h.startQueue
  startTable hw i := by
    refine Option.eq_none_iff_forall_ne_some.2 fun b hb => ?_
    obtain ⟨c, hc, -⟩ := hr i b hb
    rw [h.startTable hw i] at hc
    cases hc

/-- Spans may leave the queue (R89, R92). -/
theorem BoundOnce.dequeue {q : List Queued} (h : BoundOnce s) (hq : q.Sublist s.retire) : BoundOnce (s.setRetire q) :=
  { h with
    queue := h.queue.sublist (hq.map Queued.span)
    queueUsable := fun x hx => h.queueUsable x (hq.mem hx)
    apart := fun x hx => h.apart x (hq.mem hx)
    startQueue := fun hw => by
      rw [h.startQueue hw] at hq
      exact List.sublist_nil.1 hq }

/-- A span admitted joins the queue (R90). -/
theorem BoundOnce.enqueue {n : Nat} {o : RetireOrigin} (h : BoundOnce s) (ha : admission s n = .taken)
    (hw : startWork s.journal.task = false) : BoundOnce (enqueueSpan n o s) := by
  obtain ⟨hu, hq, hb, -⟩ := admission_taken ha
  exact { h with
    queue := by
      refine (List.map_append ▸ List.nodup_append.2 ⟨h.queue, List.nodup_singleton _, fun x hx y hy => ?_⟩)
      obtain ⟨q, hm, rfl⟩ := List.mem_map.1 hx
      rw [List.mem_singleton.1 hy]; exact hq q hm
    queueUsable := fun x hx => by
      rcases List.mem_append.1 hx with hx | hx
      · exact h.queueUsable x hx
      · rw [List.mem_singleton.1 hx]; exact hu
    apart := fun x hx i b hi => by
      rcases List.mem_append.1 hx with hx | hx
      · exact h.apart x hx i b hi
      · rw [List.mem_singleton.1 hx]; exact hb i b hi
    startQueue := fun hs => by simp [enqueueSpan, hw] at hs }

/-- The copy engine may change when it keeps its job and stays at work on it, or when no entry is under copy. -/
theorem BoundOnce.setCopy {c : CopyCtx} (h : BoundOnce s)
    (hc : c.job = s.copy.job ∧ (c.state = .idle → s.copy.state = .idle) ∨
      ∀ i : Fin 128, ∀ b ∈ s.remap[i], b.stage = .active) : BoundOnce (s.setCopy c) :=
  { h with
    oneCopy := fun i b hb hn => by
      rcases hc with ⟨hj, hi⟩ | ha
      · obtain ⟨hs, he⟩ := h.oneCopy i b hb hn
        exact ⟨fun hx => hs (hi hx), hj ▸ he⟩
      · exact absurd (ha i b hb) hn }

/-- A FREE entry takes a usable span and a slot of the pool that nothing else holds; a copy context that the new
table asks for comes with it (R16, R22). -/
theorem BoundOnce.bind {e : Fin 128} {b : Binding} {c : CopyCtx} (h : BoundOnce s)
    (hw : beforeRecords s.journal.task = false) (hu : s.geom.usable b.span = true) (hk : b.slot < s.geom.spareCount)
    (hs : ∀ i : Fin 128, ∀ x ∈ s.remap[i], x.span ≠ b.span) (hl : ∀ i : Fin 128, ∀ x ∈ s.remap[i], x.slot ≠ b.slot)
    (hq : ∀ q ∈ s.retire, q.span ≠ b.span)
    (hc : ∀ i : Fin 128, ∀ x ∈ (s.remap.set e (some b))[i], x.stage ≠ .active →
      c.state ≠ .idle ∧ c.job.map CopyJob.entry = some i) :
    BoundOnce ((s.setRemap (s.remap.set e (some b))).setCopy c) := by
  have cases_set : ∀ i : Fin 128, ∀ x ∈ (s.remap.set e (some b))[i], (i = e ∧ x = b) ∨ x ∈ s.remap[i] := by
    intro i x hx
    rw [vector_set_getElem] at hx
    split at hx
    · exact .inl ⟨Eq.symm ‹_›, (Option.some.inj hx).symm⟩
    · exact .inr hx
  exact { h with
    entries := fun i j x hx y hy hxy => by
      rcases cases_set i x hx with ⟨hi, hb⟩ | hx' <;> rcases cases_set j y hy with ⟨hj, hc⟩ | hy'
      · exact hi.trans hj.symm
      · subst hb; exact (hxy.elim (fun e => hs j y hy' e.symm) fun e => hl j y hy' e.symm).elim
      · subst hc; exact (hxy.elim (hs i x hx') (hl i x hx')).elim
      · exact h.entries i j x hx' y hy' hxy
    usable := fun i x hx => by
      rcases cases_set i x hx with ⟨-, rfl⟩ | hx
      · exact hu
      · exact h.usable i x hx
    slots := fun i x hx => by
      rcases cases_set i x hx with ⟨-, rfl⟩ | hx
      · exact hk
      · exact h.slots i x hx
    apart := fun q hm i x hx => by
      rcases cases_set i x hx with ⟨-, rfl⟩ | hx
      · exact (hq q hm).symm
      · exact h.apart q hm i x hx
    oneCopy := hc
    startTable := fun hb => by
      have hb : beforeRecords s.journal.task = true := hb
      rw [hw] at hb; cases hb }

/-- Start-up work has taken no record before it is start-up work. -/
theorem startWork_of_beforeRecords {k : Task} (h : beforeRecords k = true) : startWork k = true := by
  cases k with
  | hold => rfl
  | replayHeaders => rfl
  | _ => cases h

/-- With an IDLE copy engine every entry is ACTIVE or FREE. -/
theorem BoundOnce.active_of_idle (h : BoundOnce s) (hi : s.copy.state = .idle) :
    ∀ i : Fin 128, ∀ b ∈ s.remap[i], b.stage = .active := fun i b hb => by
  by_contra hn
  exact (h.oneCopy i b hb hn).1 hi

/-- A copy start binds the head of the queue to a free slot, in an entry that is the copy engine's (R16, R95). -/
theorem BoundOnce.start {q : Queued} {rest : List Queued} {e : Fin 128} {k : Nat} {c : CopyCtx} (h : BoundOnce s)
    (hi : s.copy.state = .idle) (hm : s.mode = .online) (hq : s.retire = q :: rest)
    (hk : freeSlot s.geom s.remap = some k) (hs : c.state ≠ .idle) (hj : c.job = some ⟨e, q.span, k⟩) :
    BoundOnce (((s.setRetire rest).setRemap
      (s.remap.set e (some ⟨.copying, q.span, k, 0, q.origin, false, 0⟩))).setCopy c) := by
  obtain ⟨hlt, hfree⟩ := freeSlot_some hk
  have hmem : q ∈ s.retire := by rw [hq]; exact List.mem_cons_self ..
  have hw : beforeRecords s.journal.task = false := by
    cases hb : beforeRecords s.journal.task with
    | false => rfl
    | true => exact absurd hm (h.startMode (startWork_of_beforeRecords hb))
  have hnodup := h.queue
  rw [hq, List.map_cons, List.nodup_cons] at hnodup
  refine (h.dequeue (hq ▸ List.sublist_cons_self q rest)).bind hw (h.queueUsable q hmem) hlt (h.apart q hmem) hfree
    (fun x hx he => hnodup.1 (List.mem_map.2 ⟨x, hx, he⟩)) fun i x hx hn => ?_
  rw [vector_set_getElem] at hx
  split at hx
  · exact ⟨hs, by rw [hj, ← ‹e = i›]; rfl⟩
  · exact absurd (h.active_of_idle hi i x hx) hn

/-- Replay restores an ASSIGN record that passes its checks (R22). -/
theorem BoundOnce.restore {r : JRecord} {e : Fin 128} (h : BoundOnce s) (hw : startWork s.journal.task = true)
    (hb : beforeRecords s.journal.task = false) (hc : assignCheck s r = 0) :
    BoundOnce (s.setRemap (s.remap.set e (some (restoredBinding r)))) := by
  obtain ⟨hu, hk, hs, hl⟩ := assignCheck_eq_zero hc
  refine h.bind (b := restoredBinding r) (c := s.copy) hb hu hk hs hl (by simp [h.startQueue hw]) fun i x hx hn => ?_
  rw [vector_set_getElem] at hx
  split at hx
  · rw [← Option.some.inj hx] at hn; exact absurd rfl hn
  · exact h.oneCopy i x hx hn

/-! ### The acts -/

/-- The operation on the copy's own entry, read back: an entry keeps its span and slot, or is as it was. -/
theorem modifyEntry_mem {k i : Fin 128} {f : Binding → Binding} {r : Remap} {b : Binding}
    (hb : b ∈ (modifyEntry k f r)[i]) : b ∈ r[i] ∨ ∃ c ∈ r[i], c.stage ≠ .active ∧ b = f c := by
  unfold modifyEntry at hb
  split at hb
  · rename_i c hc
    split at hb
    · exact .inl hb
    · rw [vector_set_getElem] at hb
      split at hb
      · exact .inr ⟨c, ‹k = i› ▸ hc, ‹_›, (Option.some.inj hb).symm⟩
      · exact .inl hb
  · exact .inl hb

/-- An entry left when the copy's own is freed was there before. -/
theorem freeJobEntry_mem {j : CopyJob} {i : Fin 128} {r : Remap} {b : Binding} (hb : b ∈ (freeJobEntry j r)[i]) :
    b ∈ r[i] := by
  unfold freeJobEntry at hb
  split at hb
  · rw [vector_set_getElem] at hb
    split at hb
    · cases hb
    · exact hb
  · exact hb

/-- No act binds a span or a slot twice. -/
theorem Act.keeps_boundOnce (h : Act u v) (hu : BoundOnce u) : BoundOnce v := by
  cases h with
  | geom g _ he =>
    obtain ⟨hr, hq⟩ := he hu
    exact { hu with
      usable := fun i b hb => by rw [Option.mem_def, State.setGeom_remap, hr i] at hb; cases hb
      slots := fun i b hb => by rw [Option.mem_def, State.setGeom_remap, hr i] at hb; cases hb
      queueUsable := fun q hm => by rw [State.setGeom_retire, hq] at hm; cases hm }
  | fence => exact { hu with startMode := fun _ => by simp }
  | online _ hw =>
    exact { hu with startMode := fun h => by rw [State.setMode_journal, hw] at h; cases h }
  | journaled j =>
    refine hu.setRemap fun i b hb => ?_
    rw [journalFlags, tableMap_getElem] at hb
    obtain ⟨c, hc, rfl⟩ := Option.map_eq_some_iff.1 hb
    exact ⟨c, hc, by split <;> simp⟩
  | jobEntry j f _ hf _ =>
    refine hu.setRemap fun i b hb => ?_
    rcases modifyEntry_mem hb with hb | ⟨c, hc, ha, rfl⟩
    · exact ⟨b, hb, rfl, rfl, id⟩
    · exact ⟨c, hc, (hf c).1, (hf c).2, fun _ => ha⟩
  | freeJob j _ => exact hu.setRemap fun i b hb => ⟨b, freeJobEntry_mem hb, rfl, rfl, id⟩
  | restore r e hw hb hc _ => exact hu.restore hw hb hc
  | enqueue n o ha hw => exact hu.enqueue ha (hw hu)
  | dequeue q hq => exact hu.dequeue hq
  | copy c _ hj => exact hu.setCopy (hj.imp id fun ha => ha hu)
  | start q rest e k c hi hm hq hk _ _ hs hj => exact hu.start hi hm hq hk hs hj
  | journal J hw hb =>
    exact { hu with
      startMode := fun h => hu.startMode (hw h)
      startQueue := fun h => hu.startQueue (hw h)
      startTable := fun h => hu.startTable (hb h) }
  | _ => exact hu.congr rfl rfl rfl rfl rfl rfl

/-! ### A step -/

/-- With empty tables in STARTUP nothing is bound or queued. -/
theorem BoundOnce.of_empty (hr : ∀ i : Fin 128, s.remap[i] = none) (hq : s.retire = []) (hm : s.mode = .startup) :
    BoundOnce s where
  entries := by simp [hr]
  usable := by simp [hr]
  slots := by simp [hr]
  queue := by simp [hq]
  queueUsable := by simp [hq]
  apart := by simp [hq]
  oneCopy := by simp [hr]
  startMode := by simp [hm]
  startQueue := fun _ => hq
  startTable := fun _ => hr

/-- A full reset empties the tables, and replay begins on them empty (R1, R14, R89). -/
theorem BoundOnce.fullReset (hold en : Bool) (addr : BitVec 2) (s : State) :
    BoundOnce (fullResetState hold en addr s) := by
  have empty : ∀ i : Fin 128, (Vector.replicate 128 none : Remap)[i] = none := by simp
  cases hold with
  | true => exact .of_empty empty rfl rfl
  | false =>
    cases en with
    | true => exact .of_empty empty rfl rfl
    | false =>
      let fresh := ((State.fresh false false addr).setPins
        { hold := false, storeEn := false, addr := addr, hostReset := s.pins.hostReset }).setPending s.pending
      exact (Acts.refl.endReplay []).keeps (fun _ _ => Act.keeps_boundOnce)
        (.of_empty (s := setTask .idle fresh) empty rfl rfl)

/-- Settles O8: a full reset empties the tables, and every other command is a chain of acts, none of which binds a
span or a slot twice. -/
theorem bindingsStayUnique : Obligations.BindingsStayUnique := by
  intro s t hs hx
  unfold step at hx
  split at hx
  · cases hx; exact hs
  · rename_i c rest _
    by_cases hc : ∀ h e a, c ≠ .fullReset h e a
    · exact (acts_of_exec hc hx).keeps (fun _ _ => Act.keeps_boundOnce) (hs.congr rfl rfl rfl rfl rfl rfl)
    · simp only [not_forall, not_not] at hc
      obtain ⟨h, e, a, rfl⟩ := hc
      cases hx; exact BoundOnce.fullReset h e a _

end Sys2Proof.Machine

namespace Sys2Proof.Machine

/-! ## What reads and follows the Remap Table: ACTIVE entries, resolution, the table reads -/

variable {s t u v : State}

/-! ### ACTIVE entries -/

/-- Entry `i` is the binding `b`, but perhaps for its journaled flag (R23, R24). -/
def KeepsActive (i : Fin 128) (b : Binding) (s : State) : Prop :=
  ∃ j : Bool, s.remap[i] = some { b with journaled := j }

/-- Another entry's change leaves a binding. -/
theorem KeepsActive.set {i e : Fin 128} {b : Binding} {x : Option Binding} (h : KeepsActive i b s) (he : e ≠ i) :
    KeepsActive i b (s.setRemap (s.remap.set e x)) := by
  obtain ⟨j, hj⟩ := h
  exact ⟨j, by rw [State.setRemap_remap, vector_set_getElem, if_neg he, hj]⟩

/-- An entry that is not FREE is not the one that a binding is put in. -/
theorem KeepsActive.ne_free {i e : Fin 128} {b : Binding} (h : KeepsActive i b s) (he : freeEntry s.remap = some e) :
    e ≠ i := by
  rintro rfl
  obtain ⟨j, hj⟩ := h
  rw [freeEntry_some he] at hj; cases hj

/-- No act changes an ACTIVE entry but for its journaled flag (R23, R24). -/
theorem Act.keeps_active {i : Fin 128} {b : Binding} (hb : b.stage = .active) (h : Act u v) (hu : KeepsActive i b u) :
    KeepsActive i b v := by
  cases h with
  | journaled j =>
    obtain ⟨k, hk⟩ := hu
    exact ⟨j, by rw [State.setRemap_remap, journalFlags, tableMap_getElem, hk]; simp [hb]⟩
  | jobEntry j f _ _ _ =>
    obtain ⟨k, hk⟩ := hu
    by_cases he : j.entry = i
    · subst he
      exact ⟨k, by rw [State.setRemap_remap, modifyEntry_getElem, hk]; simp [hb]⟩
    · unfold modifyEntry
      split
      · split
        · exact ⟨k, hk⟩
        · exact KeepsActive.set ⟨k, hk⟩ he
      · exact ⟨k, hk⟩
  | freeJob j _ =>
    unfold freeJobEntry
    split
    · rename_i hc
      refine hu.set ?_
      rintro rfl
      obtain ⟨k, hk⟩ := hu
      rw [hk] at hc
      simp [underCopy, hb] at hc
    · exact hu
  | restore r e _ _ _ he => exact hu.set (hu.ne_free he)
  | start q rest e k c _ _ _ _ he _ _ _ =>
    exact KeepsActive.set (s := u.setRetire rest) hu (hu.ne_free he)
  | _ => exact hu

/-- Settles O11: every command but a full reset is a chain of acts, and each keeps the entry. -/
theorem activeBindingsStay : Obligations.ActiveBindingsStay := fun _ _ _ _ b hc hb ha hx =>
  (acts_of_exec hc hx).keeps (fun _ _ => Act.keeps_active ha) ⟨b.journaled, hb⟩

/-! ### Resolution -/

/-- Table 2-4 by the binding of the line's span. -/
theorem resolve_of_binding {g : Geometry} {r : Remap} {line : HostLine} {b : Binding} (w : Bool)
    (hb : bindingOf r (line.toNat / 64) = some b) :
    resolve g r w line = match b.stage with
      | .active => ⟨⟨g.slotSpan b.slot, line.toNat % 64⟩, none⟩
      | .committing => ⟨physOfLine line.toNat, if w then some ⟨g.slotSpan b.slot, line.toNat % 64⟩ else none⟩
      | .copying | .aborting => ⟨physOfLine line.toNat,
          if w ∧ line.toNat % 64 < b.copied then some ⟨g.slotSpan b.slot, line.toNat % 64⟩ else none⟩ := by
  simp only [resolve, physOfLine, hb]
  cases b.stage with
  | active => rfl
  | committing => cases w <;> rfl
  | copying | aborting => by_cases ho : line.toNat % 64 < b.copied <;> cases w <;> simp [ho]

theorem resolve_of_unbound {g : Geometry} {r : Remap} {line : HostLine} (w : Bool)
    (hb : bindingOf r (line.toNat / 64) = none) : resolve g r w line = ⟨physOfLine line.toNat, none⟩ := by
  simp only [resolve, physOfLine, hb]

/-- Settles O40, by the binding of the line's span and its stage. -/
theorem resolutionFollowsTheEntry : Obligations.ResolutionFollowsTheEntry := by
  rintro g r line s o rfl rfl
  refine ⟨fun hn w => resolve_of_unbound w (bindingOf_eq_none_iff.2 hn), fun i b hb hs hu => ?_⟩
  have hr : ∀ w, resolve g r w line = _ := fun w => resolve_of_binding w (bindingOf_eq_some hb hs hu)
  refine ⟨fun ha w => ?_, fun ha => ?_, fun hc => ?_, fun hc => ⟨fun ho => ?_, fun ho => ?_⟩⟩
  · rw [hr, ha]; rfl
  · rw [hr]; cases hst : b.stage with
    | active => exact absurd hst ha
    | _ => simp [physOfLine]
  · rw [hr, hc]; rfl
  · rw [hr]; rcases hc with hc | hc <;> simp [hc, ho, physOfLine, Geometry.slotSpan]
  · rw [hr]; rcases hc with hc | hc <;> simp [hc, Nat.not_lt.2 ho, physOfLine]

end Sys2Proof.Machine

namespace Sys2Proof.Machine

/-! ## The table reads

Each read places its answer and changes nothing else; what it answers is the look-up's place, and the bytes of that
place by Table 11-7. -/

variable {s : State}

/-! ### The bytes of a place -/

/-- The first byte of a Remap Table entry, bit by bit (Table 11-7). -/
theorem entry_head_byte (b : Binding) :
    byteOf (stageCode b.stage + 8 * originCode b.origin + 64 * b.journaled.toNat) =
      (0#1 ++ BitVec.ofBool b.journaled
        ++ BitVec.ofNat 3 ([RetireOrigin.auto, .command, .resumed, .restored].idxOf b.origin)
        ++ BitVec.ofNat 3 ([Stage.copying, .committing, .aborting, .active].idxOf b.stage + 1) : BitVec 8) := by
  cases b.stage <;> cases b.origin <;> cases b.journaled <;> decide

/-- The first byte of a Health Table place, bit by bit (Table 11-7). -/
theorem place_head_byte (e : HealthEntry) : byteOf (1 + 2 * e.spare.toNat + 4 * e.reported.toNat) =
    (0#5 ++ BitVec.ofBool e.reported ++ BitVec.ofBool e.spare ++ 1#1 : BitVec 8) := by
  cases e.reported <;> cases e.spare <;> decide

/-- The queue byte of FIND_SPAN for a position from 1 to 8 and an origin, bit by bit (Table 11-7). -/
theorem queue_byte {n : Nat} (h : n < 8) (o : RetireOrigin) : byteOf (n + 1 + 16 * originCode o) =
    (0#2 ++ BitVec.ofNat 2 ([RetireOrigin.auto, .command, .resumed, .restored].idxOf o)
      ++ BitVec.ofNat 4 (n + 1) : BitVec 8) := by
  interval_cases n <;> cases o <;> decide

/-! ### Where a span stands -/

/-- An index that alone satisfies the test is the lowest one. -/
theorem lowestIndex_of_unique {α : Type} {n : Nat} {p : α → Bool} {v : Vector α n} {i : Fin n} (hi : p v[i] = true)
    (hu : ∀ k : Fin n, p v[k] = true → k = i) : lowestIndex p v = some i := by
  refine (lowestIndex_eq_some_iff _ _ _).2 ⟨hi, fun k hk => ?_⟩
  by_contra hc
  exact absurd (hu k (by simpa using hc)) (Fin.ne_of_lt hk)

/-- A span is found in the entry that alone names it, or in none (R32). -/
theorem findEntry_eq {r : Remap} {n : Nat} {e : Option (Fin 128)}
    (h : (e = none ∧ ∀ i : Fin 128, ∀ b ∈ r[i], b.span ≠ n) ∨
      ∃ i : Fin 128, e = some i ∧ (∃ b ∈ r[i], b.span = n) ∧ ∀ k : Fin 128, ∀ c ∈ r[k], c.span = n → k = i) :
    findEntry r n = e := by
  rcases h with ⟨rfl, hn⟩ | ⟨i, rfl, hi, hu⟩
  · exact findEntry_eq_none_iff.2 hn
  · refine lowestIndex_of_unique (by simpa [Option.any_eq_true] using hi) fun k hk => ?_
    obtain ⟨c, hc, hn⟩ := (Option.any_eq_true _ _).1 hk
    exact hu k c hc (by simpa using hn)

/-- A span is found in the place that alone names it, or in none (R79). -/
theorem findHealth_eq {t : Health} {n : Nat} {h : Option (Fin 64)}
    (hh : (h = none ∧ ∀ i : Fin 64, ∀ f ∈ t[i], f.span ≠ n) ∨
      ∃ i : Fin 64, h = some i ∧ (∃ f ∈ t[i], f.span = n) ∧ ∀ k : Fin 64, ∀ g ∈ t[k], g.span = n → k = i) :
    findHealth t n = h := by
  rcases hh with ⟨rfl, hn⟩ | ⟨i, rfl, hi, hu⟩
  · refine (lowestIndex_eq_none_iff _ _).2 fun i => (Option.any_eq_false _ _).2 fun f hf => ?_
    simpa using hn i f hf
  · refine lowestIndex_of_unique (by simpa [Option.any_eq_true] using hi) fun k hk => ?_
    obtain ⟨g, hg, hn⟩ := (Option.any_eq_true _ _).1 hk
    exact hu k g hg (by simpa using hn)

/-- The entry of the place found. -/
theorem healthOf_entry (h : Health) (n : Nat) :
    (healthOf h n).map Prod.snd = (findHealth h n).bind fun i => h[i] := by
  unfold healthOf
  cases findHealth h n with
  | none => rfl
  | some i => cases h[i] <;> simp

/-- A span that is not queued has no position (R93). -/
theorem queuePosition_eq_none {q : List Queued} {n : Nat} (h : ∀ x ∈ q, x.span ≠ n) : queuePosition q n = none := by
  unfold queuePosition
  rw [Option.map_eq_none_iff, List.find?_eq_none]
  rintro ⟨x, k⟩ hx
  simpa using h x (List.fst_mem_of_mem_zipIdx hx)

/-- The position of a queued span is one more than the number of entries before its first (R93). -/
theorem queuePosition_append {pre post : List Queued} {x : Queued} (h : ∀ y ∈ pre, y.span ≠ x.span) :
    queuePosition (pre ++ x :: post) x.span = some (pre.length + 1, x.origin) := by
  have hp : pre.zipIdx.find? (fun e => e.1.span == x.span) = none := by
    rw [List.find?_eq_none]
    rintro ⟨y, k⟩ hy
    simpa using h y (List.fst_mem_of_mem_zipIdx hy)
  simp [queuePosition, List.zipIdx_append, List.find?_append, hp]

/-- The twenty bytes of FIND_SPAN are those of the places where the span is found (R162). -/
theorem findSpanBytes_eq {n : Nat} {e : Option (Fin 128)} {h : Option (Fin 64)} (he : findEntry s.remap n = e)
    (hh : findHealth s.health n = h) : findSpanBytes s n =
      leOption 1 (e.map Fin.val) ++ entryBytes (e.bind fun i => s.remap[i]) ++ [queueByte s.retire n]
        ++ leOption 1 (h.map Fin.val) ++ placeBytes (h.bind fun i => s.health[i]) := by
  rw [findSpanBytes, healthOf_entry, bindingOf, he, hh]

/-! ### The reads -/

/-- A read taken outside STARTUP on a link that is not BUSY runs its body on the state with the frame taken. -/
theorem takeCommand_read {ps : List Byte} {l : Bool} (f : State → State) (hb : s.link.busy = false)
    (hm : s.mode ≠ .startup) (hl : l = true) (hn : ps.length ≤ 24) :
    takeCommand (outsideStartup s) l ps f s = f (takeFrame s) :=
  takeCommand_taken hb (by simp [outsideStartup, hm]) hl hn

theorem readRemap_eq (i : Byte) (hb : s.link.busy = false) (hm : s.mode ≠ .startup) :
    exec (.readRemap [i]) s = .next (readRemapBody i.toNat (takeFrame s)) :=
  congrArg Host.Outcome.next (takeCommand_read _ hb hm rfl (by simp))

theorem readHealth_eq (i : Byte) (hb : s.link.busy = false) (hm : s.mode ≠ .startup) :
    exec (.readHealth [i]) s = .next (readHealthBody i.toNat (takeFrame s)) :=
  congrArg Host.Outcome.next (takeCommand_read _ hb hm rfl (by simp))

theorem findSpan_eq {n : Nat} (hn : n < 16777216) (hb : s.link.busy = false) (hm : s.mode ≠ .startup) :
    exec (.findSpan (leBytes 3 n)) s = .next (findSpanBody n (takeFrame s)) := by
  have h := takeCommand_read (ps := leBytes 3 n) (l := (leBytes 3 n).length == 3)
    (findSpanBody (leNat (leBytes 3 n))) hb hm (by simp) (by simp)
  exact congrArg Host.Outcome.next (h.trans (by rw [leNat_leBytes 3 n hn]))

/-- Settles O19: each read runs its body, whose answer is the place looked up, spelled byte by byte. -/
theorem tableReadsAnswer : Obligations.TableReadsAnswer := by
  intro s hb hm stages origins entry place index
  have entry_eq : ∀ x, entryBytes x = entry x := by
    rintro (_ | b)
    · rfl
    · simp only [entryBytes, entry_head_byte]; rfl
  have place_eq : ∀ x, placeBytes x = place x := by
    rintro (_ | e)
    · rfl
    · simp only [placeBytes, place_head_byte]; rfl
  have index_eq : ∀ x : Option Nat, leOption 1 x = [index x] := by rintro (_ | n) <;> rfl
  refine ⟨fun i => ?_, fun i hi => ?_, fun i => ?_, fun i hi => ?_, fun n e h q hn he hh hq => ?_, fun n hn hn' => ?_⟩
  · have hi : (BitVec.ofNat 8 i.val).toNat = i.val := Nat.mod_eq_of_lt (by omega)
    rw [readRemap_eq _ hb hm, hi, readRemapBody, dif_pos i.isLt, entry_eq]; rfl
  · rw [readRemap_eq _ hb hm, readRemapBody, dif_neg (by omega)]; rfl
  · have hi : (BitVec.ofNat 8 i.val).toNat = i.val := Nat.mod_eq_of_lt (by omega)
    rw [readHealth_eq _ hb hm, hi, readHealthBody, dif_pos i.isLt, place_eq]; rfl
  · rw [readHealth_eq _ hb hm, readHealthBody, dif_neg (by omega)]; rfl
  · have hq : queueByte s.retire n = q := by
      rcases hq with ⟨rfl, hq⟩ | ⟨pre, x, post, hr, rfl, hp, hl, rfl⟩
      · rw [queueByte, queuePosition_eq_none hq]
      · rw [queueByte, hr, queuePosition_append hp]; exact queue_byte hl x.origin
    have bytes := findSpanBytes_eq (findEntry_eq he) (findHealth_eq hh)
    simp only [hq, index_eq, entry_eq, place_eq] at bytes
    rw [findSpan_eq (by omega) hb hm, findSpanBody, if_pos (show n ≤ Config.maxSpan from hn)]
    refine congrArg Host.Outcome.next ((congrArg (answer .ok · (takeFrame s)) bytes).trans ?_)
    simp only [List.singleton_append, List.append_assoc]; rfl
  · rw [findSpan_eq hn' hb hm, findSpanBody, if_neg (show ¬ n ≤ Config.maxSpan from Nat.not_le.2 hn)]; rfl

end Sys2Proof.Machine

namespace Sys2Proof.Machine

/-! ## The end of an abort

An abort's step in flight ends first, with what it counts; the abort itself ends later, and may withdraw a slot half of
a host write. -/

variable {s t u : State}

/-! ### The abort ends -/

/-- With no slot half of a span waiting, none is withdrawn (R21). -/
theorem withdrawHalves_of_none {n : Nat} (h : ∀ i ∈ s.host.followOns, i.req.line.span ≠ n) :
    withdrawHalves n s = s := by
  have none_of : s.host.followOns.filter (isSlotHalfOf n) = [] :=
    List.filter_eq_nil_iff.2 fun i hi => by simp [isSlotHalfOf, h i hi]
  have all_stay : s.host.followOns.filter (fun i => !isSlotHalfOf n i) = s.host.followOns :=
    List.filter_eq_self.2 fun i hi => by simp [isSlotHalfOf, h i hi]
  simp only [withdrawHalves, none_of, all_stay]; rfl

/-- A slot half that is the one follow-on item is withdrawn (R21). -/
theorem withdrawHalves_of_one {n : Nat} {i : Issue} (hf : s.host.followOns = [i]) (hi : isSlotHalfOf n i = true) :
    withdrawHalves n s = withdrawHalf i (s.setHost { s.host with followOns := [] }) := by
  simp [withdrawHalves, hf, hi]

/-- A slot half of this era that is withdrawn counts DONE, and with its source half DONE the write is answered DONE
(R21, R49). -/
theorem withdrawHalf_answers {i : Issue} {tag : HostTag} {r : HostRec} (hi : i.origin = .hostWrite tag .slot s.host.era)
    (hr : s.host.recs[tag] = some r) (hs : r.sourceHalf = some .done) :
    withdrawHalf i s = answerWrite tag .done s := by
  have hr : s.host.recs[tag] = some r := hr
  simp [withdrawHalf, hi, finishHalf, hr, HostRec.setHalf, HostRec.halvesSettled, HostRec.writeOutcome, hs]

/-- The entry under copy becomes FREE (R14, R21). -/
theorem freeJobEntry_eq {j : CopyJob} {r : Remap} {b : Binding} (hb : r[j.entry] = some b) (hs : b.stage ≠ .active) :
    freeJobEntry j r = r.set j.entry none := by
  have hb : r[j.entry] = some b := hb
  rw [freeJobEntry, hb, if_pos (by simpa [underCopy] using hs)]

theorem causeValue_eq (c : Option AbortCause) : causeValue c = if c = some .fence then 2 else 1 := by
  rcases c with _ | _ | _ <;> rfl

/-- An abort whose conditions hold is the first thing that the row ABORT_END does (R21). -/
theorem exec_abortEnd {j : CopyJob} (hd : abortEndDue s = true) (hj : s.copy.job = some j) :
    exec .abortEnd s = .next (settle (finishAbort j s)) := by
  have : abortEndIfDue s = finishAbort j s := by simp only [abortEndIfDue, hd, hj, if_true]
  exact congrArg Host.Outcome.next (by rw [if_pos hd, this])

/-! ### What follows leaves the host port -/

/-- A record that stands alone in the list of an ONLINE store changes the journal alone when it is served (R131). -/
theorem serveWaiting_of_record {r : JRecord} (hr : s.journal.requests = [.record r]) (ho : s.journal.store = .online)
    (n : Nat) : ∃ J, serveWaiting n s = s.setJournal J := by
  have work : ∃ J, serveHead s = s.setJournal J ∧ J.task ≠ .idle := by
    unfold serveHead
    simp only [hr, ho, if_true]
    split <;> exact ⟨_, rfl, by simp⟩
  obtain ⟨J, hJ, hn⟩ := work
  cases n with
  | zero => exact ⟨s.journal, rfl⟩
  | succ n =>
    unfold serveWaiting; split
    · exact ⟨J, by rw [hJ, serveWaiting_of_not_due (by simp [serveDue, hn])]⟩
    · exact ⟨s.journal, rfl⟩

/-- A copy that starts changes no host request (R16, R95). -/
theorem considerStart_host (s : State) : (considerStart s).host = s.host := by
  have taken : ∀ t : State, (takeLine t).host = t.host := fun t => by
    simp only [takeLine]; split <;> rfl
  unfold considerStart; split
  · split
    · rfl
    · split
      · simp only [startCopy, sendBegin]; split
        · exact taken _
        · rfl
      · unfold spareExhausted; split <;> rfl
  · rfl

/-- With no request to serve and no abort to end, what follows in a step changes nothing of the host port. -/
theorem settle_host_of_not_due (h : serveDue s = false) (ha : abortEndDue s = false) : (settle s).host = s.host := by
  have served : ∃ J, serveWaiting ((considerStart s).journal.requests.length + 1) (considerStart s) =
      (considerStart s).setJournal J := by
    by_cases hd : serveDue (considerStart s) = true
    · obtain ⟨r, hr, ho⟩ := (considerStart_done h ha).2.2 hd
      exact serveWaiting_of_record hr ho _
    · exact ⟨_, serveWaiting_of_not_due (by simpa using hd) _⟩
  obtain ⟨J, hJ⟩ := served
  obtain ⟨q, hq, -⟩ := copyReadIfDue_frame ((considerStart s).setJournal J)
  obtain ⟨r, hr⟩ := sweepReadIfDue_frame (copyReadIfDue ((considerStart s).setJournal J))
  simp only [settle, serveWaiting_of_not_due h, abortEndIfDue_of_not_due ha, hJ]
  rw [hr, State.setSweep_host, hq, State.setCopy_host, State.setJournal_host, considerStart_host]

/-- After an abort ends, what follows leaves the host port as the abort's end left it. -/
theorem settle_finishAbort_host {j : CopyJob} (h : serveDue s = false) :
    (settle (finishAbort j s)).host = (withdrawHalves (s.geom.slotSpan j.slot) s).host := by
  have hj : (finishAbort j s).journal = s.journal := withdrawHalves_journal _ s
  refine settle_host_of_not_due ?_ rfl
  rw [serveDue, hj]; exact h

/-! ### The step in flight ends -/

/-- A health increment commutes with an update of the copy engine. -/
theorem healthIncrement_setCopy (n : Nat) (f : Bool) (src : Source) (c : CopyCtx) (s : State) :
    healthIncrement n f src (s.setCopy c) = (healthIncrement n f src s).setCopy c := by
  have full : ∀ s : State, dropIncrement n f src (s.setCopy c) = (dropIncrement n f src s).setCopy c := fun s => by
    unfold dropIncrement; rw [apply_ite (State.setCopy · c)]; rfl
  have report : ∀ (i : Fin 64) (e : HealthEntry) (ev : Event) (s : State),
      reportOnce i e ev (s.setCopy c) = (reportOnce i e ev s).setCopy c := fun i e ev s => by
    unfold reportOnce; rw [apply_ite (State.setCopy · c)]; rfl
  have auto : ∀ (k : Nat) (s : State), autoRequest k src (s.setCopy c) = (autoRequest k src s).setCopy c := fun k s => by
    have ha : admission (s.setCopy c) k = admission s k := rfl
    unfold autoRequest
    rw [ha, apply_ite (State.setCopy · c)]
    cases admission s k <;> rfl
  have check : ∀ (i : Fin 64) (e : HealthEntry) (s : State),
      thresholdCheck i e src (s.setCopy c) = (thresholdCheck i e src s).setCopy c := fun i e s => by
    unfold thresholdCheck
    simp only [apply_ite (State.setCopy · c), ← report, ← auto]
    rfl
  have hp : incrementPlace (s.setCopy c) n = incrementPlace s n := rfl
  unfold healthIncrement
  rw [hp]
  cases incrementPlace s n with
  | none => exact full s
  | some x => exact check _ _ (s.setHealth _)

/-- What a read in flight counts does not turn on the request that it leaves (R108). -/
theorem abortReadCounts_setCopy {i : Issue} {res : ReadResult} {c : CopyCtx} (hc : c.retry = s.copy.retry) :
    abortReadCounts i res (s.setCopy c) = (abortReadCounts i res s).setCopy c := by
  cases res with
  | clean => rfl
  | poisoned => rfl
  | fixed => exact healthIncrement_setCopy _ _ _ _ _
  | failed =>
    simp only [abortReadCounts, State.setCopy_copy, hc]; split
    · exact healthIncrement_setCopy _ _ _ _ _
    · rfl

theorem abortReadCounts_journal (i : Issue) (res : ReadResult) (s : State) :
    (abortReadCounts i res s).journal = s.journal := by
  have counted : ∀ f, (healthIncrement i.req.line.span f .copy s).journal = s.journal := fun f => by
    obtain ⟨H, R, E, b, h⟩ := healthIncrement_frame i.req.line.span f .copy s
    rw [h]
  unfold abortReadCounts; split
  · exact counted false
  · split
    · exact counted true
    · rfl
  · rfl
  · rfl

/-- A read or retry that is the step in flight of an abort counts by its condition and ends the step (R108). -/
theorem completeIssue_of_abortRead {i : Issue} {c : Condition} {res : ReadResult} (x : LineData)
    (hs : s.copy.state = .aborting) (ho : i.origin = .copyRead ∨ i.origin = .copyRetry) (hb : i.req.body = .read)
    (hc : readResult c = some res) : completeIssue i c x s =
      stepEnded ((abortReadCounts i res s).setCopy { s.copy with request := .absent }) := by
  have hr : completeIssue i c x s = copyReadCompletes i res x s := by
    rcases ho with ho | ho <;> simp only [completeIssue, hb, hc, readCompletes, ho]
  rw [hr, copyReadCompletes]
  simp only [State.setCopy_copy, hs, if_true]
  rw [← abortReadCounts_setCopy (by rfl)]

/-- A slot write DONE that is the step in flight of an abort counts its line and ends the step (R108). -/
theorem completeIssue_of_abortWrite {i : Issue} {y x : LineData} {m : ByteMask} {mark : Bool} {j : CopyJob} {b : Binding}
    (hs : s.copy.state = .aborting) (hj : s.copy.job = some j) (ho : i.origin = .copyWrite)
    (hb : i.req.body = .write x m mark) (he : s.remap[j.entry] = some b) (ha : b.stage = .aborting) :
    completeIssue i .done y s = stepEnded ((s.setRemap (s.remap.set j.entry
      (some (lineCopied s.copy.cursor mark b)))).setCopy { s.copy with request := .absent }) := by
  have he : s.remap[j.entry] = some b := he
  have hw : completeIssue i .done y s = copyWriteCompletes i s := by
    simp only [completeIssue, hb, writeCompletes, ho, if_true]
  have hm : i.req.marked = mark := by rw [DownReq.marked, hb]
  rw [hw, copyWriteCompletes]
  simp only [State.setCopy_copy, hj, hs, if_true, hm, modifyJobEntry, modifyEntry, State.setCopy_remap, he, ha]
  rfl

/-- The end of the step in flight, with what it counted: COPY off its line, and CANCEL to be sent (R109). -/
theorem stepEnded_counted (s t : State) : stepEnded (t.setCopy { s.copy with request := .absent }) =
    sendCancel (removeHolder .copy (t.setCopy s.copy.stepOver)) := by
  rw [stepEnded]; rfl

/-- CANCEL sent to a journal that takes records is all that follows (R109, R131). -/
theorem settle_sendCancel_of_taken {j : CopyJob} (hj : t.copy.job = some j) (hJ : t.journal.TakesRecords)
    (hu : u = { t with journal := t.journal.asked ⟨.cancelRec, j.span, j.slot, 0⟩ }) (hs : settled u = true) :
    settle (sendCancel t) = u := by
  simp only [sendCancel, hj, recordSkipped_of_taken hJ]
  exact settle_enqueueRequest hJ hu hs

/-- CANCEL skipped is reported at once, and nothing else follows (R109, R131). -/
theorem settle_sendCancel_of_skipped {j : CopyJob} (hj : t.copy.job = some j) (hJ : t.journal.store ≠ .online)
    (hu : u = { t with copy := { t.copy with cancelDone := true } }) (hs : settled u = true) :
    settle (sendCancel t) = u := by
  have : sendCancel t = u := by
    simp only [sendCancel, hj, recordSkipped_of_not_online hJ, if_true]; rw [hu]; rfl
  rw [this]; exact settle_of_settled hs

/-! ### The statement -/

/-- The conditions that end the step in flight of an abort, by what each counts (R108). -/
theorem completeIssue_of_abort {i : Issue} {c : Condition} {data : LineData} {counted : State} {j : CopyJob}
    {b : Binding} (hs : s.copy.state = .aborting) (hj : s.copy.job = some j) (he : s.remap[j.entry] = some b)
    (ha : b.stage = .aborting)
    (h : (i.origin = .copyRead ∨ i.origin = .copyRetry) ∧ i.req.body = .read ∧
          ((c = .clean ∨ c = .poisoned) ∧ counted = s ∨
            c = .fixed ∧ counted = healthIncrement i.req.line.span false .copy s ∨
            c = .failed ∧ (i.origin = .copyRead ∨ ∃ r, s.copy.retry = some r ∧ r.used < r.limit) ∧ counted = s ∨
            c = .failed ∧ i.origin = .copyRetry ∧ (∃ r, s.copy.retry = some r ∧ r.used = r.limit) ∧
              counted = healthIncrement i.req.line.span true .copy s) ∨
        i.origin = .copyWrite ∧ c = .done ∧ ∃ (x : LineData) (m : ByteMask) (mark : Bool),
          i.req.body = .write x m mark ∧ counted = { s with remap := s.remap.set j.entry (some { b with
            copied := s.copy.cursor + 1, poisoned := if mark then b.poisoned + 1 else b.poisoned }) }) :
    completeIssue i c data s = stepEnded (counted.setCopy { s.copy with request := .absent }) ∧
      counted.journal = s.journal := by
  rcases h with ⟨ho, hb, hc⟩ | ⟨ho, rfl, x, m, mark, hb, rfl⟩
  · have key : ∃ res, readResult c = some res ∧ counted = abortReadCounts i res s := by
      rcases hc with ⟨rfl | rfl, rfl⟩ | ⟨rfl, rfl⟩ | ⟨rfl, hn, rfl⟩ | ⟨rfl, ho, ⟨r, hr, hu⟩, rfl⟩
      · exact ⟨.clean, rfl, rfl⟩
      · exact ⟨.poisoned, rfl, rfl⟩
      · exact ⟨.fixed, rfl, rfl⟩
      · refine ⟨.failed, rfl, (if_neg ?_).symm⟩
        rcases hn with hn | ⟨r, hr, hu⟩
        · simp [hn]
        · simp [lastRetry, hr, hu]
      · exact ⟨.failed, rfl, (if_pos ⟨ho, by simp [lastRetry, hr, hu]⟩).symm⟩
    obtain ⟨res, hr, rfl⟩ := key
    exact ⟨completeIssue_of_abortRead data hs ho hb hr, abortReadCounts_journal i res s⟩
  · exact ⟨completeIssue_of_abortWrite hs hj ho hb he ha, rfl⟩

/-- Settles O53. The abort's end is `finishAbort` with nothing or one slot half to withdraw; the step in flight ends in
`sendCancel`, by whether the journal takes records. -/
theorem abortsEnd : Obligations.AbortsEnd := by
  intro s j b hs hj hb ha
  refine ⟨fun hf hc hw hd => ?_, fun d i c data counted hi freed hfr hcase left hl => ?_⟩
  · have due : abortEndDue s = true := by
      simpa [abortEndDue, hs, hf, hc, hj, Geometry.slotSpan] using hw
    refine ⟨fun hn u hu hset => ?_, fun tag r p x m hfo hp hr hsrc => ?_⟩
    · have done : finishAbort j s = u := by
        rw [hu, finishAbort, withdrawHalves_of_none (n := s.geom.slotSpan j.slot) hn, freeJobEntry_eq hb (by simp [ha]), causeValue_eq]; rfl
      rw [exec_abortEnd due hj, done, settle_of_settled hset]
    · refine ⟨_, exec_abortEnd due hj, ?_⟩
      rw [settle_finishAbort_host hd, withdrawHalves_of_one hfo (by simp [isSlotHalfOf, DownReq.isWrite, hp]; rfl),
        withdrawHalf_answers (s := s.setHost { s.host with followOns := [] }) rfl hr hsrc]
      refine ⟨rfl, by simp [answerWrite, sendUp, setRecord], ?_⟩
      simp [answerWrite, sendUp, setRecord, contain]
  · have hfree : freed = setTag d .free s := hfr
    have hfs : freed.copy = s.copy := by rw [hfr]
    obtain ⟨hx, hcj⟩ := completeIssue_of_abort (s := freed) (data := data) (by rw [hfs, hs])
      (by rw [hfs, hj]) (by rw [hfr]; exact hb) ha (by subst hfr; exact hcase)
    have hleft : left = removeHolder .copy (counted.setCopy s.copy.stepOver) := hl
    have exec_eq : exec (.downstreamResponse d c data) s = .next (settle (sendCancel left)) := by
      refine congrArg Host.Outcome.next ((portResponse_of_inUse c data hi).trans (congrArg settle ?_))
      rw [← hfree, hx, stepEnded_counted, hfs, hleft]
    have hlj : left.copy.job = some j := by rw [hleft, removeHolder_copy]; exact hj
    have hlJ : left.journal = s.journal := by
      rw [hleft, removeHolder_journal]
      exact hcj.trans (by rw [hfr])
    refine ⟨fun hJ u hu hset => ?_, fun hJ u hu hset => ?_⟩
    · rw [exec_eq, settle_sendCancel_of_taken hlj (hlJ ▸ hJ) (by rw [hlJ]; exact hu) hset]
    · rw [exec_eq, settle_sendCancel_of_skipped hlj (hlJ ▸ hJ) hu hset]

end Sys2Proof.Machine

namespace Sys2Proof.Machine

/-! ## Nothing is left due

A step that ends with `settle` leaves nothing due. Every other step makes nothing due that was not (`NoNewDue`): it
changes what no rule waits for, or hands a request on without losing a write in flight (`Carries`), or gives the
journal controller work, or takes a line under SWEEP and presents its READ. -/

variable {s t u v : State}

/-! ### What a settled state is -/

theorem settled_iff (s : State) : settled s = true ↔ serveDue s = false ∧ abortEndDue s = false ∧
    startDue s = false ∧ copyReadDue s = false ∧ sweepReadDue s = false := by
  simp only [settled, Bool.and_eq_true, Bool.not_eq_true', and_assoc]

/-- Whatever is due in `t` was due in `s`. -/
structure NoNewDue (s t : State) : Prop where
  serve : serveDue t = true → serveDue s = true
  abort : abortEndDue t = true → abortEndDue s = true
  start : startDue t = true → startDue s = true
  copyRead : copyReadDue t = true → copyReadDue s = true
  sweepRead : sweepReadDue t = true → sweepReadDue s = true

theorem NoNewDue.refl (s : State) : NoNewDue s s := ⟨id, id, id, id, id⟩

theorem NoNewDue.trans (h : NoNewDue s t) (h' : NoNewDue t u) : NoNewDue s u :=
  ⟨h.serve ∘ h'.serve, h.abort ∘ h'.abort, h.start ∘ h'.start, h.copyRead ∘ h'.copyRead, h.sweepRead ∘ h'.sweepRead⟩

theorem NoNewDue.ite {c : Prop} [Decidable c] (h : NoNewDue s t) (h' : NoNewDue s u) :
    NoNewDue s (if c then t else u) := by split <;> assumption

theorem NoNewDue.settled (h : NoNewDue s t) (hs : settled s = true) : settled t = true := by
  rw [settled_iff] at hs ⊢
  simp only [← Bool.not_eq_true] at hs ⊢
  obtain ⟨h1, h2, h3, h4, h5⟩ := hs
  exact ⟨h1 ∘ h.serve, h2 ∘ h.abort, h3 ∘ h.start, h4 ∘ h.copyRead, h5 ∘ h.sweepRead⟩

/-- With an IDLE copy engine, an empty queue, no request and no swept line, nothing is due. -/
theorem settled_of_idle (hj : s.journal.requests = []) (hc : s.copy.state = .idle) (hq : s.retire = [])
    (hw : s.sweep.state ≠ .reading) : settled s = true := by
  rw [settled_iff]
  refine ⟨by simp [serveDue, hj], by simp [abortEndDue, hc], by simp [startDue, hq], by simp [copyReadDue, hc],
    by simp [sweepReadDue, hw]⟩

/-! ### Updates that no rule waits for -/

/-- The fields that the rules of `settled` read. -/
def dueFields (s : State) : Mode × Geometry × Remap × List Queued × CopyCtx × Journal × Sweep × Vector TagState 64
    × List Issue × Option PhysLine :=
  (s.mode, s.geom, s.remap, s.retire, s.copy, s.journal, s.sweep, s.port.tags, s.host.followOns, s.locks.sweep)

theorem NoNewDue.same (h : dueFields t = dueFields s) : NoNewDue s t := by
  simp only [dueFields, Prod.mk.injEq] at h
  obtain ⟨hm, hg, hr, hq, hc, hj, hw, hp, hf, hl⟩ := h
  have hwrite : hostWriteAt t = hostWriteAt s := funext fun p => by simp only [hostWriteAt, issuesAtMemory, hp, hf]
  have hslot : slotHalfWaits t = slotHalfWaits s := funext fun p => by simp only [slotHalfWaits, hf]
  have hcq : copyQuiet t = copyQuiet s := funext fun p => by simp only [copyQuiet, hwrite, hl]
  have hsq : sweepQuiet t = sweepQuiet s := funext fun p => by simp only [sweepQuiet, hwrite, hslot]
  exact {
    serve := by rw [serveDue, hj]; exact id
    abort := by simp only [abortEndDue, spanWriteInFlight, issuesAtMemory, hg, hc, hw, hp, hf]; exact id
    start := by simp only [startDue, mayStart, hm, hg, hr, hq, hc]; exact id
    copyRead := by simp only [copyReadDue, hc, hcq]; exact id
    sweepRead := by simp only [sweepReadDue, hw, hsq]; exact id }

/-- A controller with work serves no request, whatever the list (R131). -/
theorem NoNewDue.setTask {k : Task} (hk : k ≠ .idle) (s : State) : NoNewDue s (setTask k s) :=
  ⟨fun h => by simp [serveDue, Machine.setTask, hk] at h, id, id, id, id⟩

/-- A change of the sweep that keeps its request, and starts no reading. -/
theorem NoNewDue.setSweep {w : Sweep} (hr : w.request = s.sweep.request)
    (hs : w.state = .reading → s.sweep.state = .reading ∧ w.line = s.sweep.line) : NoNewDue s (s.setSweep w) where
  serve := id
  abort h := by
    simp only [abortEndDue, spanWriteInFlight, State.setSweep_sweep, hr] at h
    exact h
  start := id
  copyRead := id
  sweepRead h := by
    simp only [sweepReadDue, State.setSweep_sweep, Bool.and_eq_true, beq_iff_eq] at h
    obtain ⟨⟨hw, ha⟩, hq⟩ := h
    simp only [sweepReadDue, Bool.and_eq_true, beq_iff_eq]
    exact ⟨⟨(hs hw).1, hr ▸ ha⟩, (hs hw).2 ▸ hq⟩

/-- A change of the sweep that keeps its state, its line and its request. -/
theorem NoNewDue.keepSweep {w : Sweep} (hr : w.request = s.sweep.request) (hs : w.state = s.sweep.state)
    (hl : w.line = s.sweep.line) : NoNewDue s (s.setSweep w) := .setSweep hr fun h => ⟨hs ▸ h, hl⟩

theorem NoNewDue.setParams (p : Params) (s : State) : NoNewDue s (s.setParams p) := .same rfl

theorem NoNewDue.passEnd (s : State) : NoNewDue s (passEnd s) :=
  .trans (t := (offer (passDoneEvent s.sweep) s).setHealth (decay s.params s.health)) (.same rfl)
    (.keepSweep rfl rfl rfl)

theorem NoNewDue.advance (s : State) : NoNewDue s (advance s) := by
  unfold Machine.advance; split
  · exact .keepSweep rfl rfl rfl
  · exact .passEnd s

theorem NoNewDue.sweepWait (s : State) : NoNewDue s (sweepWait s) := .setSweep rfl (by simp)

theorem NoNewDue.sweepHalt (s : State) : NoNewDue s (sweepHalt s) := .setSweep rfl (by simp)

theorem NoNewDue.sweepSkip (s : State) : NoNewDue s (sweepSkip s) :=
  ((NoNewDue.keepSweep (w := countSkipped s.sweep) rfl rfl rfl).trans (.advance _)).trans (.sweepWait _)

theorem NoNewDue.sweepReposition (s : State) : NoNewDue s (sweepReposition s) := .keepSweep rfl rfl rfl

theorem NoNewDue.sweepStopNow (s : State) : NoNewDue s (sweepStopNow s) :=
  (NoNewDue.setParams { s.params with sweepEnable := false } s).trans
    (.ite (.keepSweep rfl rfl rfl) (.ite (.sweepHalt _) (.refl _)))

theorem NoNewDue.sweepStartNow (s : State) : NoNewDue s (sweepStartNow s) :=
  (NoNewDue.setParams { s.params with sweepEnable := true } s).trans
    (.ite (.ite (.keepSweep rfl rfl rfl) (.ite (.sweepWait _) (.refl _))) (.refl _))

/-- No parameter makes a rule due (R160). -/
theorem NoNewDue.applyParam (id v : Nat) (s : State) : NoNewDue s (applyParam id v s) := by
  unfold Machine.applyParam; split
  case h_5 => exact (NoNewDue.setParams { s.params with sweepInterval := v } s).trans (.keepSweep rfl rfl rfl)
  case h_7 => exact .ite (.sweepStartNow s) (.sweepStopNow s)
  all_goals exact .same rfl

/-- A head diverted or left waiting makes nothing due: no rule of `settled` reads the request items (R59). -/
theorem NoNewDue.divertHead (s : State) : NoNewDue s (divertHead s) := .ite (.same rfl) (.same rfl)

theorem NoNewDue.countTaken (op : HostOp) (s : State) : NoNewDue s (countTaken op s) := by
  unfold Machine.countTaken; split <;> exact .same rfl

/-- A host request taken makes nothing due (R39). -/
theorem NoNewDue.takeRequest (tag : HostTag) (op : HostOp) (line : HostLine) (s : State) :
    NoNewDue s (takeRequest tag op line s) := by
  have refused : NoNewDue s (answerRefused tag op s) := by
    unfold answerRefused; split <;> exact .same rfl
  have answered : NoNewDue s (answerWrite tag .done (Machine.countTaken op s)) :=
    (NoNewDue.countTaken op s).trans (.same rfl)
  have admitted : NoNewDue s (admitRequest tag op line s) := by
    refine (NoNewDue.countTaken op s).trans ?_
    unfold admitRequest
    generalize Machine.countTaken op s = u
    exact .ite (.same rfl) (.same rfl)
  exact .ite (.refl s) (.ite (.same rfl) (.ite refused (.ite answered admitted)))

/-- Spans removed from the queue start no copy (R92, R95). -/
theorem NoNewDue.setRetire {q : List Queued} (hq : s.retire = [] → q = []) : NoNewDue s (s.setRetire q) :=
  ⟨id, id, fun h => by
    simp only [startDue, Bool.and_eq_true, State.setRetire_retire, Bool.not_eq_true', List.isEmpty_eq_false_iff] at h ⊢
    obtain ⟨⟨hm, hne⟩, hfree⟩ := h
    exact ⟨⟨hm, fun he => hne (hq he)⟩, hfree⟩, id, id⟩

/-! ### Requests handed on -/

/-- An issue is at memory when a tag is IN USE for it (R69). -/
theorem mem_issuesAtMemory_iff {p : Port} {i : Issue} : i ∈ issuesAtMemory p ↔ ∃ d : PortTag, p.tags[d] = .inUse i := by
  simp only [issuesAtMemory, List.mem_filterMap, Vector.mem_toList_iff, Vector.mem_iff_getElem]
  constructor
  · rintro ⟨x, ⟨d, hd, rfl⟩, hx⟩
    refine ⟨⟨d, hd⟩, ?_⟩
    show p.tags[d] = _
    cases ht : p.tags[d] <;> simp_all [TagState.issue]
  · rintro ⟨d, hd⟩
    exact ⟨_, ⟨d.val, d.isLt, hd⟩, rfl⟩

/-- From `s` to `t` only requests move: what was at memory, or waited as a write or a reissue, is at memory or still
waits, and a background originator without a request had none. -/
structure Carries (s t : State) : Prop where
  mode : t.mode = s.mode := by rfl
  geom : t.geom = s.geom := by rfl
  remap : t.remap = s.remap := by rfl
  retire : t.retire = s.retire := by rfl
  journal : t.journal = s.journal := by rfl
  lock : t.locks.sweep = s.locks.sweep := by rfl
  copy : t.copy = { s.copy with request := t.copy.request, retry := t.copy.retry } := by rfl
  sweep : t.sweep = { s.sweep with request := t.sweep.request, retry := t.sweep.retry } := by rfl
  copyAbsent : t.copy.request = .absent → s.copy.request = .absent := by exact id
  sweepAbsent : t.sweep.request = .absent → s.sweep.request = .absent := by exact id
  port : ∀ i ∈ issuesAtMemory s.port, i ∈ issuesAtMemory t.port := by exact fun _ => id
  followOn : ∀ i ∈ s.host.followOns, i.req.isWrite = true → i ∈ issuesAtMemory t.port ∨
    ∃ k ∈ t.host.followOns, k.req = i.req ∧ k.reissue = i.reissue ∧
      (i.origin.isHostWrite = true → k.origin.isHostWrite = true) := by
    exact fun i hi _ => .inr ⟨i, hi, rfl, rfl, id⟩
  copyIssue : ∀ i, s.copy.request = .presented i → i ∈ issuesAtMemory t.port ∨ t.copy.request = .presented i := by
    exact fun _ => .inr
  sweepIssue : ∀ i, s.sweep.request = .presented i → i ∈ issuesAtMemory t.port ∨ t.sweep.request = .presented i := by
    exact fun _ => .inr

theorem hostWriteAt_iff (s : State) (p : PhysLine) : hostWriteAt s p = true ↔
    (∃ i ∈ issuesAtMemory s.port, i.origin.isHostWrite = true ∧ i.req.line = p) ∨
      ∃ i ∈ s.host.followOns, i.origin.isHostWrite = true ∧ i.req.isWrite = true ∧ i.reissue = true ∧ i.req.line = p := by
  simp only [hostWriteAt, Bool.or_eq_true, List.any_eq_true, Bool.and_eq_true, beq_iff_eq, and_assoc]

theorem slotHalfWaits_iff (s : State) (p : PhysLine) : slotHalfWaits s p = true ↔
    ∃ i ∈ s.host.followOns, i.origin.isHostWrite = true ∧ i.req.isWrite = true ∧ i.reissue = false ∧ i.req.line = p := by
  simp only [slotHalfWaits, List.any_eq_true, Bool.and_eq_true, Bool.not_eq_true', beq_iff_eq, and_assoc]

theorem BgRequest.mem_presentedIssue {r : BgRequest} {i : Issue} :
    i ∈ r.presentedIssue.toList ↔ r = .presented i := by
  cases r <;> simp [BgRequest.presentedIssue, eq_comm]

theorem spanWriteInFlight_iff (s : State) (n : Nat) : spanWriteInFlight s n = true ↔
    (∃ i ∈ issuesAtMemory s.port, i.req.isWrite = true ∧ i.req.line.span = n) ∨
      ∃ i, (i ∈ s.host.followOns ∨ s.copy.request = .presented i ∨ s.sweep.request = .presented i) ∧
        i.req.isWrite = true ∧ i.reissue = true ∧ i.req.line.span = n := by
  simp only [spanWriteInFlight, Bool.or_eq_true, List.any_eq_true, Bool.and_eq_true, beq_iff_eq, List.mem_append,
    BgRequest.mem_presentedIssue, and_assoc, or_assoc]

theorem Carries.hostWriteAt (h : Carries s t) {p : PhysLine} (hs : hostWriteAt s p = true) :
    hostWriteAt t p = true := by
  rw [hostWriteAt_iff] at hs ⊢
  rcases hs with ⟨i, hi, ho, hl⟩ | ⟨i, hi, ho, hw, hr, hl⟩
  · exact .inl ⟨i, h.port i hi, ho, hl⟩
  · rcases h.followOn i hi hw with hm | ⟨k, hk, hreq, hre, hok⟩
    · exact .inl ⟨i, hm, ho, hl⟩
    · exact .inr ⟨k, hk, hok ho, hreq ▸ hw, hre ▸ hr, hreq ▸ hl⟩

theorem Carries.slotHalfWaits (h : Carries s t) {p : PhysLine} (hs : slotHalfWaits s p = true) :
    Machine.hostWriteAt t p = true ∨ Machine.slotHalfWaits t p = true := by
  rw [slotHalfWaits_iff] at hs
  obtain ⟨i, hi, ho, hw, hr, hl⟩ := hs
  rcases h.followOn i hi hw with hm | ⟨k, hk, hreq, hre, hok⟩
  · exact .inl ((hostWriteAt_iff t p).2 (.inl ⟨i, hm, ho, hl⟩))
  · exact .inr ((slotHalfWaits_iff t p).2 ⟨k, hk, hok ho, hreq ▸ hw, hre ▸ hr, hreq ▸ hl⟩)

theorem Carries.spanWriteInFlight (h : Carries s t) {n : Nat} (hs : spanWriteInFlight s n = true) :
    spanWriteInFlight t n = true := by
  rw [spanWriteInFlight_iff] at hs ⊢
  rcases hs with ⟨i, hi, hw, hn⟩ | ⟨i, hi, hw, hr, hn⟩
  · exact .inl ⟨i, h.port i hi, hw, hn⟩
  · rcases hi with hi | hi | hi
    · rcases h.followOn i hi hw with hm | ⟨k, hk, hreq, hre, -⟩
      · exact .inl ⟨i, hm, hw, hn⟩
      · exact .inr ⟨k, .inl hk, hreq ▸ hw, hre ▸ hr, hreq ▸ hn⟩
    · rcases h.copyIssue i hi with hm | hk
      · exact .inl ⟨i, hm, hw, hn⟩
      · exact .inr ⟨i, .inr (.inl hk), hw, hr, hn⟩
    · rcases h.sweepIssue i hi with hm | hk
      · exact .inl ⟨i, hm, hw, hn⟩
      · exact .inr ⟨i, .inr (.inr hk), hw, hr, hn⟩

/-- A quiet line after requests moved was quiet before. -/
theorem Carries.copyQuiet (h : Carries s t) {p : PhysLine} (ht : copyQuiet t p = true) : copyQuiet s p = true := by
  simp only [Machine.copyQuiet, Bool.and_eq_true, Bool.not_eq_true', h.lock] at ht ⊢
  exact ⟨Bool.eq_false_iff.2 fun hw => by simp [h.hostWriteAt hw] at ht, ht.2⟩

theorem Carries.sweepQuiet (h : Carries s t) {p : PhysLine} (ht : sweepQuiet t p = true) : sweepQuiet s p = true := by
  simp only [Machine.sweepQuiet, Bool.and_eq_true, Bool.not_eq_true'] at ht ⊢
  refine ⟨Bool.eq_false_iff.2 fun hw => by simp [h.hostWriteAt hw] at ht, Bool.eq_false_iff.2 fun hw => ?_⟩
  rcases h.slotHalfWaits hw with hx | hx <;> simp [hx] at ht

/-- Requests handed on make nothing due. -/
theorem Carries.noNewDue (h : Carries s t) : NoNewDue s t where
  serve ht := by rw [serveDue, h.journal] at ht; exact ht
  abort ht := by
    rw [abortEndDue, h.copy, h.geom] at ht
    simp only [abortEndDue, Bool.and_eq_true, Option.any_eq_true, Bool.not_eq_true'] at ht ⊢
    obtain ⟨hc, j, hj, hw⟩ := ht
    exact ⟨hc, j, hj, Bool.eq_false_iff.2 fun hs => by simp [h.spanWriteInFlight hs] at hw⟩
  start ht := by rw [startDue, mayStart, h.mode, h.copy, h.geom, h.remap, h.retire] at ht; exact ht
  copyRead ht := by
    have hl : sourceLine t.copy = sourceLine s.copy := by rw [h.copy]; rfl
    have hst : t.copy.state = s.copy.state := by rw [h.copy]
    simp only [copyReadDue, Bool.and_eq_true, beq_iff_eq, Option.any_eq_true, hl, hst] at ht ⊢
    obtain ⟨⟨hs, ha⟩, p, hp, hq⟩ := ht
    exact ⟨⟨hs, h.copyAbsent ha⟩, p, hp, h.copyQuiet hq⟩
  sweepRead ht := by
    have hl : t.sweep.line = s.sweep.line := by rw [h.sweep]
    have hst : t.sweep.state = s.sweep.state := by rw [h.sweep]
    simp only [sweepReadDue, Bool.and_eq_true, beq_iff_eq, Option.any_eq_true, hl, hst] at ht ⊢
    obtain ⟨⟨hs, ha⟩, p, hp, hq⟩ := ht
    exact ⟨⟨hs, h.sweepAbsent ha⟩, p, hp, h.sweepQuiet hq⟩

/-- A tag that is not IN USE may become FREE, or IN USE. -/
theorem mem_issuesAtMemory_setTag {d : PortTag} {v : TagState} {i : Issue} (hd : ∀ k, s.port.tags[d] ≠ .inUse k)
    (hi : i ∈ issuesAtMemory s.port) : i ∈ issuesAtMemory (setTag d v s).port := by
  rw [mem_issuesAtMemory_iff] at hi ⊢
  obtain ⟨e, he⟩ := hi
  refine ⟨e, ?_⟩
  show (s.port.tags.set d v)[e] = _
  rw [vector_set_getElem, if_neg (by rintro rfl; exact hd i he), he]

theorem mem_issuesAtMemory_issueOn (d : PortTag) (i : Issue) (s : State) :
    i ∈ issuesAtMemory (issueOn d i s).port :=
  mem_issuesAtMemory_iff.2 ⟨d, by show (s.port.tags.set d (.inUse i))[d] = _; rw [vector_set_getElem, if_pos rfl]⟩

end Sys2Proof.Machine

namespace Sys2Proof.Machine

/-! ## Every command leaves nothing due -/

variable {s t u v : State}

/-! ### The arbiter and the host-path reset -/

theorem countLadder_frame (i : Issue) (s : State) :
    ∃ L, countLadder i s = s.setHost { s.host with ladders := L } := by
  unfold countLadder; split
  · split
    · exact ⟨s.host.ladders, rfl⟩
    · exact ⟨_, rfl⟩
  · exact ⟨s.host.ladders, rfl⟩

theorem NoNewDue.issueOn {d : PortTag} (hd : ∀ k, s.port.tags[d] ≠ .inUse k) (i : Issue) :
    NoNewDue s (issueOn d i s) :=
  Carries.noNewDue { port := fun _ => mem_issuesAtMemory_setTag hd }

theorem NoNewDue.pushFollowOn (i : Issue) (s : State) : NoNewDue s (pushFollowOn i s) :=
  Carries.noNewDue { followOn := fun k hk _ => .inr ⟨k, List.mem_append_left _ hk, rfl, rfl, id⟩ }

theorem NoNewDue.issueRequest {d : PortTag} (hd : ∀ k, s.port.tags[d] ≠ .inUse k) (tag : HostTag) (r : HostRec) :
    NoNewDue s (issueRequest d tag r s) := by
  have recorded : ∀ (q : HostRec) (i : Issue), NoNewDue s (Machine.issueOn d i (setRecord tag (some q) s)) :=
    fun q i => .trans (t := setRecord tag (some q) s) (.same rfl) (.issueOn (s := setRecord tag (some q) s) hd i)
  unfold Machine.issueRequest; split
  · exact recorded _ _
  · dsimp only; split
    · exact (recorded _ _).trans (.pushFollowOn _ _)
    · exact recorded _ _

/-- A follow-on item granted goes from the queue to memory (R42). -/
theorem NoNewDue.grantFollowOn {d : PortTag} {i : Issue} {rest : List Issue} (hd : ∀ k, s.port.tags[d] ≠ .inUse k)
    (hf : s.host.followOns = i :: rest) :
    NoNewDue s (Machine.issueOn d i (countLadder i (s.setHost { s.host with followOns := rest }))) := by
  obtain ⟨L, hL⟩ := countLadder_frame i (s.setHost { s.host with followOns := rest })
  rw [hL]
  refine Carries.noNewDue { port := fun _ => mem_issuesAtMemory_setTag hd, followOn := fun k hk _ => ?_ }
  rcases List.mem_cons.1 (hf ▸ hk) with rfl | hk
  · exact .inl (mem_issuesAtMemory_issueOn d k _)
  · exact .inr ⟨k, hk, rfl, rfl, id⟩

theorem NoNewDue.grantForeground {d : PortTag} (hd : ∀ k, s.port.tags[d] ≠ .inUse k) :
    NoNewDue s (grantForeground d s) := by
  unfold Machine.grantForeground; split
  · exact .grantFollowOn hd ‹_›
  · split
    · exact .refl s
    · rename_i rest _
      dsimp only; split
      · exact .trans (t := s.setHost { s.host with requests := rest }) (.same rfl)
          (.issueRequest (s := s.setHost { s.host with requests := rest }) hd _ _)
      · exact .same rfl

/-- A background request granted goes from its originator to memory (R75). -/
theorem NoNewDue.grantBackground {d : PortTag} (hd : ∀ k, s.port.tags[d] ≠ .inUse k) :
    NoNewDue s (grantBackground d s) := by
  unfold Machine.grantBackground; split
  · rename_i i hi
    exact Carries.noNewDue {
      copyAbsent := fun h => by cases h
      port := fun _ => mem_issuesAtMemory_setTag hd
      copyIssue := fun k hk => by
        cases hi.symm.trans hk; exact .inl (mem_issuesAtMemory_issueOn d i _) }
  · split
    · rename_i i hi
      exact Carries.noNewDue {
        sweepAbsent := fun h => by cases h
        port := fun _ => mem_issuesAtMemory_setTag hd
        sweepIssue := fun k hk => by
          cases hi.symm.trans hk; exact .inl (mem_issuesAtMemory_issueOn d i _) }
    · exact .refl s

theorem NoNewDue.arbitrate (s : State) : NoNewDue s (arbitrate s) := by
  unfold Machine.arbitrate
  refine .ite ?_ (.refl s)
  split
  · rename_i d hd
    have hfree : s.port.tags[d] = .free := by simpa using ((lowestIndex_eq_some_iff _ _ _).1 hd).1
    have hd : ∀ k, s.port.tags[d] ≠ .inUse k := fun k => by rw [hfree]; simp
    exact .ite ((NoNewDue.grantForeground hd).trans (.same rfl)) ((NoNewDue.grantBackground hd).trans (.same rfl))
  · exact .refl s

/-- The writes of the host port go on as orphan writes after a host-path reset (R50). -/
theorem NoNewDue.hostPathReset (s : State) : NoNewDue s (hostPathReset s) := by
  refine .trans (t := s.setHost (resetHost s.host)) (Carries.noNewDue { followOn := fun i hi hw => .inr ?_ }) (.same rfl)
  exact ⟨orphanOf i, List.mem_map_of_mem (List.mem_filter.2 ⟨hi, hw⟩), rfl, rfl, fun _ => rfl⟩

/-! ### The sweep's line -/

/-- With nothing else due, a quiet line's READ is all that the sweep has due (R117). -/
theorem settled_sweepReadIfDue (h1 : serveDue s = false) (h2 : abortEndDue s = false) (h3 : startDue s = false)
    (h4 : copyReadDue s = false) : settled (sweepReadIfDue s) = true := by
  rw [settled_iff]
  unfold sweepReadIfDue; split
  · rename_i hd
    simp only [sweepReadDue, Bool.and_eq_true, beq_iff_eq, Option.any_eq_true] at hd
    obtain ⟨⟨-, ha⟩, p, hp, -⟩ := hd
    have presented : presentSweep .read .sweepRead s =
        s.setSweep { s.sweep with request := .presented ⟨⟨p, .read⟩, .sweepRead, false⟩ } := by
      simp only [presentSweep, hp]
    rw [presented]
    refine ⟨h1, ?_, h3, h4, by simp [sweepReadDue]⟩
    have no_write : ∀ n, spanWriteInFlight (s.setSweep
        { s.sweep with request := .presented ⟨⟨p, .read⟩, .sweepRead, false⟩ }) n = spanWriteInFlight s n := fun n => by
      simp [spanWriteInFlight, ha, BgRequest.presentedIssue]
    simp only [abortEndDue, no_write]; exact h2
  · rename_i hd
    exact ⟨h1, h2, h3, h4, by simpa using hd⟩

/-- A line visited leaves nothing due when the sweep held none: SWEEP taken frees no line for the copy engine (R98,
R116). -/
theorem sweepVisit_settled (hs : settled s = true) (hl : s.locks.sweep = none) : settled (sweepVisit s) = true := by
  have skipped : settled (sweepSkip s) = true := (NoNewDue.sweepSkip s).settled hs
  obtain ⟨h1, h2, h3, h4, -⟩ := (settled_iff s).1 hs
  unfold sweepVisit; split
  · exact skipped
  · split
    · refine settled_sweepReadIfDue h1 h2 h3 (Bool.eq_false_iff.2 fun hd => Bool.eq_false_iff.1 h4 ?_)
      simp only [copyReadDue, Bool.and_eq_true, Option.any_eq_true] at hd ⊢
      obtain ⟨hc, q, hq, hquiet⟩ := hd
      simp only [copyQuiet, Bool.and_eq_true] at hquiet
      exact ⟨hc, q, hq, by simp only [copyQuiet, Bool.and_eq_true, hl]; exact ⟨hquiet.1, by simp⟩⟩
    · exact skipped

theorem sweepExpire_settled (hs : settled s = true) (hl : s.locks.sweep = none) : settled (sweepExpire s) = true := by
  unfold sweepExpire; split
  · exact sweepVisit_settled ((NoNewDue.keepSweep rfl rfl rfl).settled hs) hl
  · exact ((NoNewDue.passEnd s).trans (.sweepWait _)).settled hs

/-- A WAITING sweep holds no line (Table 4-1). -/
theorem sweep_unlocked_of_waiting (h : sweepLockSound s = true) (hw : s.sweep.state = .waiting) :
    s.locks.sweep = none := by
  simpa [sweepLockSound, lineInProgress, hw] using h

/-! ### The management link's commands -/

theorem NoNewDue.answer (c : RespCode) (p : List Byte) (h : NoNewDue s t) : NoNewDue s (answer c p t) :=
  h.trans (.same rfl)

/-- With the tables out of use a geometry makes nothing due (R142). -/
theorem NoNewDue.replaceGeometry (g : Geometry) (hu : tablesInUse s = false) : NoNewDue s (replaceGeometry g s) := by
  obtain ⟨-, hq, hc⟩ := tablesInUse_false hu
  have geom : ∀ t : State, t.copy = s.copy → t.retire = s.retire → NoNewDue t (t.setGeom g) := fun t h1 h2 =>
    ⟨id, fun h => by simp [abortEndDue, h1, hc] at h, fun h => by simp [startDue, h2, hq] at h, id, id⟩
  refine .trans (t := if s.geom = g then s else s.setHealth emptyHealth) (.ite (.refl s) (.same rfl)) ?_
  refine (geom _ ?_ ?_).trans (.sweepReposition _) <;> split <;> rfl

theorem takeCommand_settled {a l : Bool} {ps : List Byte} {f : State → State} (hs : settled s = true)
    (hf : settled (f (takeFrame s)) = true) : settled (takeCommand a l ps f s) = true := by
  have answered : ∀ c p, settled (answer c p s) = true := fun c p => (NoNewDue.answer c p (.refl s)).settled hs
  unfold takeCommand; split
  · exact hs
  · split
    · exact answered _ _
    · split
      · exact answered _ _
      · split
        · exact answered _ _
        · exact hf

theorem setGeometryBody_settled (g : Geometry) (hs : settled s = true) : settled (setGeometryBody g s) = true := by
  unfold setGeometryBody; split
  · exact (NoNewDue.answer _ _ (.refl s)).settled hs
  · split
    · exact (NoNewDue.answer _ _ (.refl s)).settled hs
    · rename_i hu
      dsimp only; split
      · exact settle_settled _
      · exact ((NoNewDue.replaceGeometry g (by simpa using hu)).answer _ _).settled hs

theorem retireSpanBody_settled (n : Nat) (hs : settled s = true) : settled (retireSpanBody n s) = true := by
  have answered : ∀ c p, settled (answer c p s) = true := fun c p => (NoNewDue.answer c p (.refl s)).settled hs
  unfold retireSpanBody; split
  · split
    · exact settle_settled _
    all_goals exact answered _ _
  · exact answered _ _

theorem NoNewDue.cancelQueued (n : Nat) (s : State) : NoNewDue s (cancelQueued n s) :=
  .trans (t := s.setRetire (s.retire.filter (fun e => e.span != n))) (.setRetire fun h => by rw [h]; rfl) (.same rfl)

theorem cancelRetireBody_settled (n : Nat) (hs : settled s = true) : settled (cancelRetireBody n s) = true := by
  have answered : ∀ c p, settled (answer c p s) = true := fun c p => (NoNewDue.answer c p (.refl s)).settled hs
  unfold cancelRetireBody; split
  · split
    · exact ((NoNewDue.cancelQueued n s).answer _ _).settled hs
    · split
      · exact answered _ _
      · split
        · exact settle_settled _
        all_goals exact answered _ _
  · exact answered _ _

theorem rawShiftBody_settled (ps : List Byte) (hs : settled s = true) : settled (rawShiftBody ps s) = true := by
  have answered : ∀ c p, settled (answer c p s) = true := fun c p => (NoNewDue.answer c p (.refl s)).settled hs
  unfold rawShiftBody
  split
  · exact answered _ _
  · split
    · exact answered _ _
    · split
      · exact answered _ _
      · dsimp only; split
        · exact settle_settled _
        · exact ((NoNewDue.setTask (by simp) s).trans (.same rfl)).settled hs

/-- A command as the link takes it leaves nothing due: it ends with `settle`, or makes nothing due that was not. -/
theorem runCode_settled (c : Nat) (ps : List Byte) (hs : settled s = true) : settled (runCode c ps s) = true := by
  have hf : settled (takeFrame s) = true := (NoNewDue.same rfl).settled hs
  have kept : ∀ {t : State} (c : RespCode) (p : List Byte), NoNewDue (takeFrame s) t → settled (answer c p t) = true :=
    fun c p h => (h.answer c p).settled hf
  have answered : ∀ c p, settled (answer c p (takeFrame s)) = true := fun c p => kept c p (.refl _)
  unfold runCode; split
  · exact takeCommand_settled hs (settle_settled _)
  · refine takeCommand_settled hs ?_
    unfold cleanBody; split
    · exact settle_settled _
    · exact (NoNewDue.setTask (by simp) _).settled hf
  · refine takeCommand_settled hs ?_
    unfold getParamBody; split
    · exact answered _ _
    · split <;> exact answered _ _
  · refine takeCommand_settled hs ?_
    unfold setParamBody; split
    · exact kept _ _ (.applyParam _ _ _)
    · exact answered _ _
  · exact takeCommand_settled hs (setGeometryBody_settled _ hf)
  · refine takeCommand_settled hs ?_
    unfold readRemapBody; split <;> exact answered _ _
  · refine takeCommand_settled hs ?_
    unfold findSpanBody; split <;> exact answered _ _
  · refine takeCommand_settled hs ?_
    unfold readHealthBody; split <;> exact answered _ _
  · exact takeCommand_settled hs (kept _ _ (.same rfl))
  · exact takeCommand_settled hs (retireSpanBody_settled _ hf)
  · exact takeCommand_settled hs (cancelRetireBody_settled _ hf)
  · refine takeCommand_settled hs ?_
    unfold readEventsBody; split <;> exact answered _ _
  · exact takeCommand_settled hs (kept _ _ (.same rfl))
  · exact takeCommand_settled hs (answered _ _)
  · exact takeCommand_settled hs (kept _ _ (.same rfl))
  · exact takeCommand_settled hs (kept _ _ (.setParams _ _))
  · exact takeCommand_settled hs (kept _ _ (.sweepStartNow _))
  · exact takeCommand_settled hs (kept _ _ (.sweepStopNow _))
  · exact takeCommand_settled hs (kept _ _ ((NoNewDue.sweepReposition _).trans (.keepSweep rfl rfl rfl)))
  · refine takeCommand_settled hs ?_
    unfold readStatsBody; split <;> exact answered _ _
  · exact takeCommand_settled hs (kept _ _ (.same rfl))
  · refine takeCommand_settled hs ?_
    unfold storeDetachBody; split
    · exact answered _ _
    · exact answered _ _
    · exact settle_settled _
  · refine takeCommand_settled hs ?_
    unfold storeAttachBody; split
    · exact answered _ _
    · split
      · exact settle_settled _
      · exact answered _ _
  · exact takeCommand_settled hs (rawShiftBody_settled _ hf)
  · exact (NoNewDue.answer _ _ (.refl s)).settled hs

theorem takeTransaction_settled (bytes : List Byte) (hs : settled s = true) :
    settled (takeTransaction bytes s) = true := by
  have answered : ∀ c p, settled (answer c p s) = true := fun c p => (NoNewDue.answer c p (.refl s)).settled hs
  unfold takeTransaction; split
  · exact hs
  · split
    · exact hs
    · split
      · exact answered _ _
      · split
        · exact answered _ _
        · split
          · exact answered _ _
          · exact runCode_settled _ _ hs

/-! ### A step -/

/-- After a full reset nothing is due: the tables are empty, the copy engine IDLE and the sweep WAITING (R1). -/
theorem fullReset_settled (hold en : Bool) (addr : BitVec 2) (s : State) :
    settled (fullResetState hold en addr s) = true ∧ sweepLockSound (fullResetState hold en addr s) = true := by
  cases hold with
  | true => exact ⟨settled_of_idle rfl rfl rfl (by simp [fullResetState, State.fresh, freshSweep]), rfl⟩
  | false =>
    cases en with
    | true =>
      rw [fullResetState_of_store]
      exact ⟨settled_of_idle rfl rfl rfl (by simp [fullResetState, State.fresh, freshSweep]), rfl⟩
    | false =>
      rw [fullResetState_of_no_store]
      exact ⟨settled_of_idle rfl rfl rfl (by simp [freshSweep]), rfl⟩

/-- A row of the memory port answered on a tag: a request completed settles, and a late response frees a tag that was
not IN USE (R70). -/
theorem portResponse_settled (d : PortTag) (c : Condition) (x : LineData) (hs : settled s = true) :
    settled (portResponse d c x s) = true := by
  unfold portResponse; split
  · exact hs
  · rename_i hq
    have hd : ∀ k, s.port.tags[d] ≠ .inUse k := fun k h => by cases hq.symm.trans h
    exact (Carries.noNewDue { port := fun _ => mem_issuesAtMemory_setTag hd }).settled hs
  · exact settle_settled _

/-- Every command but a full reset leaves nothing due. -/
theorem exec_settled {c : Instr} (hc : ∀ h e a, c ≠ .fullReset h e a) (hs : settled s = true)
    (hl : sweepLockSound s = true) (hx : exec c s = .next t) : settled t = true := by
  obtain ⟨-, habort, -, hcopy, hsweep⟩ := (settled_iff s).1 hs
  cases c <;> simp only [exec] at hx
  case fullReset h e a => exact absurd rfl (hc h e a)
  all_goals cases hx
  case hostResetAssert => exact (NoNewDue.ite (.refl s) (.hostPathReset s)).settled hs
  case hostResetRelease => exact (NoNewDue.same rfl).settled hs
  case lineRead => exact (NoNewDue.takeRequest _ _ _ s).settled hs
  case lineWrite => exact (NoNewDue.takeRequest _ _ _ s).settled hs
  case arbiterGrant => exact (NoNewDue.arbitrate s).settled hs
  case holdDiversion => exact (NoNewDue.ite (.divertHead s) (.refl s)).settled hs
  case downstreamResponse => exact portResponse_settled _ _ _ hs
  case tagTimeout =>
    unfold portTimeout; split
    · exact settle_settled _
    · exact hs
    · exact hs
  case copyReadPresent => rw [copyReadIfDue_of_not_due hcopy]; exact hs
  case sweepIntervalExpiry =>
    split
    · rename_i hw
      simp only [Bool.and_eq_true, beq_iff_eq] at hw
      exact sweepExpire_settled hs (sweep_unlocked_of_waiting hl hw.1.2)
    · exact hs
  case sweepReadPresent => rw [sweepReadIfDue_of_not_due hsweep]; exact hs
  case busyWriteRefused => exact hs
  case unknownFrame => rw [busWrite_own]; exact takeTransaction_settled _ hs
  case start => exact runCode_settled 0x01 _ hs
  case cleanStart => exact runCode_settled 0x02 _ hs
  case getParam => exact runCode_settled 0x10 _ hs
  case setParam => exact runCode_settled 0x11 _ hs
  case setGeometry => exact runCode_settled 0x12 _ hs
  case readRemap => exact runCode_settled 0x20 _ hs
  case findSpan => exact runCode_settled 0x21 _ hs
  case readHealth => exact runCode_settled 0x22 _ hs
  case clearHealth => exact runCode_settled 0x23 _ hs
  case retireSpan => exact runCode_settled 0x30 _ hs
  case cancelRetire => exact runCode_settled 0x31 _ hs
  case readEvents => exact runCode_settled 0x40 _ hs
  case dropEvents => exact runCode_settled 0x41 _ hs
  case readAlerts => exact runCode_settled 0x42 _ hs
  case ackAlerts => exact runCode_settled 0x43 _ hs
  case setAlertMask => exact runCode_settled 0x44 _ hs
  case sweepStart => exact runCode_settled 0x50 _ hs
  case sweepStop => exact runCode_settled 0x51 _ hs
  case sweepRestart => exact runCode_settled 0x52 _ hs
  case readStats => exact runCode_settled 0x58 _ hs
  case clearStats => exact runCode_settled 0x59 _ hs
  case storeDetach => exact runCode_settled 0x60 _ hs
  case storeAttach => exact runCode_settled 0x61 _ hs
  case rawShift => exact runCode_settled 0x62 _ hs
  case storeReady =>
    split
    · exact (NoNewDue.setTask (by simp) s).settled hs
    · exact hs
  case copyStart | abortEnd | journalServeRequest | sectorEraseDone | eraseLimitExpiry | programLimitExpiry
      | journalReadDone | attachReadyExpiry =>
    split
    · exact settle_settled _
    · exact hs
  case pageProgramDone =>
    split
    · split <;> exact settle_settled _
    · exact hs
  case rawShiftDone =>
    split
    · split
      · exact settle_settled _
      · exact hs
    · exact hs

/-- No act lets SWEEP be held without a line in progress (Table 4-1). -/
theorem Act.keeps_sweepLock (h : Act u v) (hu : sweepLockSound u = true) : sweepLockSound v = true := by
  simp only [sweepLockSound, Bool.or_eq_true, Option.isNone_iff_eq_none] at hu ⊢
  cases h with
  | sweep w hw =>
    rcases hw with hw | hw | hw
    · exact hu.imp (fun h => hw ▸ h) id
    · exact .inl hw
    · exact .inr hw
  | locks l hl =>
    rcases hl with hl | hl | hl
    · exact hu.imp id fun h => hl ▸ h
    · exact .inr hl
    · exact .inl hl
  | _ => exact hu

/-- Settles O9: a command that does not end with `settle` makes nothing due that was not, and SWEEP's lock goes along
the chain of acts of a command. -/
theorem nothingIsLeftDue : Obligations.NothingIsLeftDue := by
  intro s t hs hl hx
  unfold step at hx
  split at hx
  · cases hx; exact ⟨hs, hl⟩
  · rename_i c rest _
    have hs' : settled (s.setPending rest) = true := (NoNewDue.same rfl).settled hs
    by_cases hc : ∀ h e a, c ≠ .fullReset h e a
    · exact ⟨exec_settled hc hs' hl hx, (acts_of_exec hc hx).keeps (fun _ _ => Act.keeps_sweepLock) hl⟩
    · simp only [not_forall, not_not] at hc
      obtain ⟨h, e, a, rfl⟩ := hc
      cases hx; exact fullReset_settled h e a _

end Sys2Proof.Machine

namespace Sys2Proof.Machine

/-! ## Taking a host request

Which of the rules R36 to R39 takes a presented request: one equation for each, and the obligations read off them. -/

variable {s : State} {tag : HostTag} {op : HostOp} {line : HostLine}

/-! ### Accept -/

/-- The four causes of R36. -/
theorem accept_eq_false_iff (s : State) : accept s = false ↔ s.mode = .startup ∨ s.pins.hostReset = true ∨
    8 ≤ s.hold.length ∨ 32 ≤ s.host.requests.length := by
  simp only [accept, Bool.and_eq_false_iff, bne_eq_false_iff_eq, Bool.not_eq_false', decide_eq_false_iff_not,
    not_lt, or_assoc]

/-- While accept is withdrawn a request waits upstream (R36). -/
theorem takeRequest_of_not_accept (tag : HostTag) (op : HostOp) (line : HostLine) (ha : accept s = false) :
    takeRequest tag op line s = s := by
  simp [takeRequest, ha]

/-- Settles O34: the accept signal is four tests, and a request is taken only past it. -/
theorem acceptHasFourCauses : Obligations.AcceptHasFourCauses := fun s =>
  ⟨accept_eq_false_iff s, fun ha _ _ _ _ =>
    ⟨congrArg Host.Outcome.next (takeRequest_of_not_accept _ _ _ ha),
      congrArg Host.Outcome.next (takeRequest_of_not_accept _ _ _ ha)⟩⟩

/-! ### A request taken, rule by rule -/

/-- A request whose tag is outstanding is discarded with its event (R37). -/
theorem takeRequest_of_outstanding (op : HostOp) (line : HostLine) (ha : accept s = true)
    (hr : s.host.recs[tag] ≠ none) : takeRequest tag op line s = offer (protocolEvent tag) s := by
  have hr : (s.host.recs[tag]).isSome = true := Option.isSome_iff_ne_none.2 hr
  simp only [takeRequest, ha, hr]; rfl

/-- A request with a FREE tag is taken by its line and its mask (R38, R39). -/
theorem takeRequest_of_free (op : HostOp) (line : HostLine) (ha : accept s = true) (hr : s.host.recs[tag] = none) :
    takeRequest tag op line s =
      if s.geom.usable (line.toNat / 64) then
        if op.emptyWrite then answerWrite tag .done (countTaken op s) else admitRequest tag op line s
      else answerRefused tag op s := by
  have hr : (s.host.recs[tag]).isSome = false := Option.isSome_eq_false_iff.2 (Option.isNone_iff_eq_none.2 hr)
  cases hu : s.geom.usable (line.toNat / 64) <;> simp only [takeRequest, physOfLine, ha, hr, hu] <;> rfl

/-- A request for a line that is no usable span's is refused (R13, R38). -/
theorem takeRequest_of_unusable (op : HostOp) (ha : accept s = true) (hr : s.host.recs[tag] = none)
    (hu : s.geom.usable (line.toNat / 64) = false) : takeRequest tag op line s = answerRefused tag op s := by
  rw [takeRequest_of_free op line ha hr, hu]; rfl

/-- A write with an all-zero mask is answered (R38). -/
theorem takeRequest_of_emptyWrite (ha : accept s = true) (hr : s.host.recs[tag] = none)
    (hu : s.geom.usable (line.toNat / 64) = true) (he : op.emptyWrite = true) :
    takeRequest tag op line s = answerWrite tag .done (countTaken op s) := by
  rw [takeRequest_of_free op line ha hr, hu, he]; rfl

/-- Any other request becomes outstanding (R39). -/
theorem takeRequest_of_admitted (ha : accept s = true) (hr : s.host.recs[tag] = none)
    (hu : s.geom.usable (line.toNat / 64) = true) (he : op.emptyWrite = false) :
    takeRequest tag op line s = admitRequest tag op line s := by
  rw [takeRequest_of_free op line ha hr, hu, he]; rfl

/-- Settles O38: R37 is looked at before R38 and R39. -/
theorem duplicateTagsAreDiscarded : Obligations.DuplicateTagsAreDiscarded := by
  rintro s tag line d m ha hr u rfl
  exact ⟨congrArg Host.Outcome.next (takeRequest_of_outstanding _ _ ha hr),
    congrArg Host.Outcome.next (takeRequest_of_outstanding _ _ ha hr)⟩

/-! ### Answered at once -/

/-- The record of a FREE tag made FREE. -/
theorem setRecord_none_of_free (hr : s.host.recs[tag] = none) : setRecord tag none s = s := by
  have h : s.host.recs.set tag none = s.host.recs := by
    rw [← hr]; exact Vector.set_getElem_self _
  simp only [setRecord, h]; rfl

/-- An answer to a request that never became outstanding is the response alone (R34, R38). -/
theorem answerRead_of_free (o : ReadOutcome) (d : LineData) (hr : s.host.recs[tag] = none) :
    answerRead tag o d s = sendUp (.readData tag o d (contain s)) s := by
  rw [answerRead, setRecord_none_of_free hr]

theorem answerWrite_of_free (o : WriteOutcome) (hr : s.host.recs[tag] = none) :
    answerWrite tag o s = sendUp (.writeDone tag o (contain s)) s := by
  rw [answerWrite, setRecord_none_of_free hr]

/-- A line out of range or in the pool is no usable span's (R13). -/
theorem Geometry.usable_eq_false {g : Geometry} {n : Nat} (h : g.memSize * 64 ≤ n ∨ g.inPool (n / 64) = true) :
    g.usable (n / 64) = false := by
  rcases h with h | h
  · have : ¬ n / 64 < g.memSize := by omega
    simp [Geometry.usable, this]
  · simp [Geometry.usable, h]

/-- Settles O36: R38 by the request's line and its mask, for a tag that is and stays FREE. -/
theorem hostRequestsAreAnsweredAtOnce : Obligations.HostRequestsAreAnsweredAtOnce := by
  intro s tag line d ha hr
  refine ⟨fun h => ?_, fun hu => ?_⟩
  · have hu := Geometry.usable_eq_false h
    have read : takeRequest tag .read line s = _ :=
      (takeRequest_of_unusable _ ha hr hu).trans (answerRead_of_free (s := countRefusal s) _ _ hr)
    have write (m : ByteMask) : takeRequest tag (.write d m) line s = _ :=
      (takeRequest_of_unusable _ ha hr hu).trans (answerWrite_of_free (s := countRefusal s) _ hr)
    exact ⟨congrArg Host.Outcome.next read, fun m => congrArg Host.Outcome.next (write m)⟩
  · have empty : takeRequest tag (.write d 0) line s = _ :=
      (takeRequest_of_emptyWrite ha hr hu rfl).trans (answerWrite_of_free (s := countTaken (.write d 0) s) _ hr)
    exact congrArg Host.Outcome.next empty

/-! ### Queued or held -/

/-- A write with a mask entry set is no empty write (R38). -/
theorem HostOp.emptyWrite_eq_false {d : LineData} {m : ByteMask} (hm : m ≠ 0) : (HostOp.write d m).emptyWrite = false :=
  beq_eq_false_iff_ne.2 hm

/-- Why a request is held at take (R39, R58). -/
theorem heldAtTake_iff (s : State) (op : HostOp) (line : HostLine) : heldAtTake s op line = true ↔
    (∃ t ∈ s.hold, ∃ r ∈ s.host.recs[t], r.line = line) ∨
      op ≠ .read ∧ s.locks.lockedAt (resolve s.geom s.remap true line) = true := by
  simp only [heldAtTake, Bool.or_eq_true, List.any_eq_true, HostPort.isFor_iff, Bool.and_eq_true, bne_iff_ne]

/-- A request not held joins the tail of the request items (R39). -/
theorem admitRequest_of_queued (tag : HostTag) (h : heldAtTake s op line = false) :
    admitRequest tag op line s = (countTaken op s).setHost { s.host with
      recs := s.host.recs.set tag (some (takenRecord op line .queued s.host.arrivals))
      requests := s.host.requests ++ [tag], arrivals := s.host.arrivals + 1 } := by
  have hc : (countTaken op s).host = s.host := by cases op <;> rfl
  simp only [admitRequest, h, setRecord, hc]; rfl

/-- A request held joins the tail of the Hold List and is counted (R39, R58, R63). -/
theorem admitRequest_of_held (tag : HostTag) (h : heldAtTake s op line = true) :
    admitRequest tag op line s = (((countTaken op s).setHost { s.host with
      recs := s.host.recs.set tag (some (takenRecord op line .held s.host.arrivals))
      arrivals := s.host.arrivals + 1 }).setHold (s.hold ++ [tag])).setStats
        { (countTaken op s).stats with holds := s.stats.holds + 1 } := by
  cases op <;> simp only [admitRequest, h] <;> rfl

/-- Settles O35: neither cause of R39 for holding the request is there. -/
theorem hostRequestsAreQueued : Obligations.HostRequestsAreQueued := by
  intro s tag line ha hr hu hfree
  have held_iff (op : HostOp) : heldAtTake s op line = true ↔
      op ≠ .read ∧ s.locks.lockedAt (resolve s.geom s.remap true line) = true := by
    rw [heldAtTake_iff]
    refine or_iff_right ?_
    rintro ⟨t, ht, r, hr, hl⟩
    exact hfree t ht r hr hl
  refine ⟨?_, fun d m hm hlock => ?_⟩
  · have read : heldAtTake s .read line = false := Bool.eq_false_iff.2 fun h => ((held_iff _).1 h).1 rfl
    exact congrArg Host.Outcome.next ((takeRequest_of_admitted ha hr hu rfl).trans (admitRequest_of_queued tag read))
  · have write : heldAtTake s (.write d m) line = false :=
      Bool.eq_false_iff.2 fun h => Bool.eq_false_iff.1 hlock ((held_iff _).1 h).2
    exact congrArg Host.Outcome.next
      ((takeRequest_of_admitted ha hr hu (HostOp.emptyWrite_eq_false hm)).trans (admitRequest_of_queued tag write))

/-- Settles O37: a cause of R39 for holding the request is there. -/
theorem hostRequestsAreHeld : Obligations.HostRequestsAreHeld := by
  intro s tag line ha hr hu
  refine ⟨fun h => ?_, fun d m hm h => ?_⟩
  · have read : heldAtTake s .read line = true := (heldAtTake_iff _ _ _).2 (.inl h)
    exact congrArg Host.Outcome.next ((takeRequest_of_admitted ha hr hu rfl).trans (admitRequest_of_held tag read))
  · have write : heldAtTake s (.write d m) line = true :=
      (heldAtTake_iff _ _ _).2 (h.imp_right fun hlock => ⟨by simp, hlock⟩)
    exact congrArg Host.Outcome.next
      ((takeRequest_of_admitted ha hr hu (HostOp.emptyWrite_eq_false hm)).trans (admitRequest_of_held tag write))

end Sys2Proof.Machine

namespace Sys2Proof.Machine

/-! ## The host-path reset, and the completion of host requests

A response on an IN USE tag is read off the originator of its request: one equation for each kind of request, and the
frame of what the host port makes of it. -/

variable {s t : State} {d : PortTag} {i : Issue} {tag : HostTag}

/-! ### Responses -/

/-- A response whose completion leaves nothing due does no more than complete its request (R70). -/
theorem exec_response_of_settled {c : Condition} {x : LineData} {u : State} (ht : s.port.tags[d] = .inUse i)
    (hu : completeIssue i c x (setTag d .free s) = u) (hs : settled u = true) :
    exec (.downstreamResponse d c x) s = .next u :=
  congrArg Host.Outcome.next (by rw [portResponse_of_inUse c x ht, hu, settle_of_settled hs])

/-! ### The host-path reset -/

/-- A READ of before the last host-path reset is handed to nobody (R50). -/
theorem readCompletes_of_forgotten (res : ReadResult) (x : LineData)
    (hf : i.origin.forgotten t.host.era = true) : readCompletes i res x t = t := by
  cases ho : i.origin with
  | hostRead tag e | ladderRetry k tag e =>
    have he : e ≠ t.host.era := by simpa [ho, Originator.forgotten] using hf
    simp only [readCompletes, hostReadCompletes, ho, if_neg he]
  | hostWrite _ _ _ | orphan => simp only [readCompletes, ho]
  | _ => simp [ho, Originator.forgotten] at hf

/-- An orphan WRITE, or one of before the last host-path reset, is handed to nobody (R50). -/
theorem writeCompletes_of_forgotten (hf : i.origin.forgotten t.host.era = true) : writeCompletes i t = t := by
  cases ho : i.origin with
  | hostWrite tag half e =>
    have he : e ≠ t.host.era := by simpa [ho, Originator.forgotten] using hf
    simp only [writeCompletes, hostWriteCompletes, ho, if_neg he]
  | orphan => simp only [writeCompletes, hostWriteCompletes, ho]
  | hostRead _ _ | ladderRetry _ _ _ => simp only [writeCompletes, ho]
  | _ => simp [ho, Originator.forgotten] at hf

/-- A condition that does not end a READ in ERROR reports about its data (R67). -/
theorem readResult_isSome {r : DownReq} {c : Condition} (hb : r.body = .read) (hc : r.endsInError c = false) :
    ∃ res, readResult c = some res := by
  cases c <;> simp_all [DownReq.endsInError, readResult]

/-- A late response, not in ERROR, is discarded (R50). -/
theorem completeIssue_of_forgotten {c : Condition} (x : LineData) (hf : i.origin.forgotten t.host.era = true)
    (hc : i.req.endsInError c = false) : completeIssue i c x t = t := by
  cases hb : i.req.body with
  | read =>
    obtain ⟨res, hres⟩ := readResult_isSome hb hc
    simp only [completeIssue, hb, hres, readCompletes_of_forgotten res x hf]
  | write data m mark =>
    have hdone : c = .done := by simpa [DownReq.endsInError, hb] using hc
    simp only [completeIssue, hb, hdone, if_true, writeCompletes_of_forgotten hf]

/-- Settles O39: the reset and the release are what their rows say, and a late response completes nothing. -/
theorem hostResetClearsHostTraffic : Obligations.HostResetClearsHostTraffic := by
  refine fun s => ⟨fun hp => ⟨hostPathReset s, ?_, ?_, rfl⟩, rfl, ?_⟩
  · exact congrArg Host.Outcome.next (if_neg (Bool.eq_false_iff.1 hp))
  · exact (accept_eq_false_iff _).2 (.inr (.inl rfl))
  · rintro d i c x ht hf hc u rfl hs
    exact exec_response_of_settled ht (completeIssue_of_forgotten (t := setTag d .free s) x hf hc) hs

/-! ### A half of a host write -/

/-- A half that is DONE ends its write, unless the other half is PENDING (R48, R49). -/
theorem finishHalf_done {half : Half} {r : HostRec} (hr : s.host.recs[tag] = some r) :
    finishHalf tag half .done s = if r.besideHalf half = some .pending
      then setRecord tag (some (r.setHalf half .done)) s
      else answerWrite tag (if r.besideHalf half = some .failed then .dropped else .done) s := by
  have hr : s.host.recs[tag] = some r := hr
  have settled_iff : (r.setHalf half .done).halvesSettled = (r.besideHalf half != some .pending) := by
    cases half <;> simp [HostRec.setHalf, HostRec.halvesSettled, HostRec.besideHalf]
  have outcome : (r.setHalf half .done).writeOutcome =
      if r.besideHalf half = some .failed then .dropped else .done := by
    refine if_congr ?_ rfl rfl
    cases half <;> simp [HostRec.setHalf, HostRec.besideHalf]
  rw [finishHalf, hr]
  dsimp only
  rw [settled_iff, outcome]
  by_cases h : r.besideHalf half = some .pending <;> simp [h]

/-- DONE for a WRITE of a half of this era ends that half (R48, R49). -/
theorem completeIssue_of_hostWrite {half : Half} {p : PhysLine} {y : LineData} {m : ByteMask} {mark : Bool}
    (re : Bool) (x : LineData) (t : State) :
    completeIssue ⟨⟨p, .write y m mark⟩, .hostWrite tag half t.host.era, re⟩ .done x t = finishHalf tag half .done t :=
  if_pos rfl

/-- Settles O46, by whether the other half is PENDING. -/
theorem hostWritesComplete : Obligations.HostWritesComplete := by
  rintro s d tag p data x m re half r hr ht freed rfl other hother
  have hother : other = r.besideHalf half := hother.trans (by cases half <;> rfl)
  have hdone := (completeIssue_of_hostWrite (half := half) (p := p) (y := data) (m := m) (mark := false) re x
    (setTag d .free s)).trans (finishHalf_done (s := setTag d .free s) hr)
  refine ⟨fun o hn ho u hu hs => ?_, fun hp u hu hs => ?_⟩
  · rw [← hother, if_neg hn, ← ho] at hdone
    exact exec_response_of_settled ht (hdone.trans hu.symm) hs
  · rw [← hother, if_pos hp] at hdone
    refine exec_response_of_settled ht (hdone.trans (Eq.trans ?_ hu.symm)) hs
    cases half <;> rfl

end Sys2Proof.Machine

namespace Sys2Proof.Machine

/-! ## The completion of host reads

What a READ of this era comes to, by its condition: an answer, a ladder, or a further retry. -/

variable {s t : State} {tag : HostTag} {p : PhysLine}

/-! ### By condition -/

/-- A READ of a host request of this era that reports about its data ends that read (R43, R44). -/
theorem completeIssue_of_hostRead {c : Condition} {res : ReadResult} (tag : HostTag) (p : PhysLine) (re : Bool)
    (data : LineData) (t : State) (hc : readResult c = some res) :
    completeIssue ⟨⟨p, .read⟩, .hostRead tag t.host.era, re⟩ c data t = hostReadDone tag p res data t := by
  simp only [completeIssue, hc]; exact if_pos rfl

/-- A retry READ of this era that reports about its data is its ladder's (R46). -/
theorem completeIssue_of_ladderRetry {c : Condition} {res : ReadResult} {k : Fin 4} {l : Ladder} (tag : HostTag)
    (p : PhysLine) (re : Bool) (data : LineData) (hl : t.host.ladders[k] = some l) (hc : readResult c = some res) :
    completeIssue ⟨⟨p, .read⟩, .ladderRetry k tag t.host.era, re⟩ c data t = ladderDone k l res data t := by
  have hl : t.host.ladders[k] = some l := hl
  simp only [completeIssue, hc, readCompletes, hostReadCompletes, if_true, hl]

/-- A health increment leaves the parameters (R79 to R85). -/
theorem healthIncrement_params (n : Nat) (failed : Bool) (src : Source) (s : State) :
    (healthIncrement n failed src s).params = s.params := by
  obtain ⟨H, R, E, b, h⟩ := healthIncrement_frame n failed src s
  rw [h]

/-- The fixed increment of a host read, with its CORRECTED event when log corrected is on (R43). -/
theorem hostFixed_eq (p : PhysLine) (s : State) : hostFixed p s =
    if s.params.logCorrected then offer (lineEvent .corrected .host p none) (healthIncrement p.span false .host s)
    else healthIncrement p.span false .host s := by
  simp only [hostFixed, healthIncrement_params]

/-- With no retry limit, or no free ladder, a FAILED read is answered at once (R44). -/
theorem hostReadFailed_of_no_ladder (tag : HostTag) (p : PhysLine)
    (h : s.params.retryLimit = 0 ∨ ∀ k : Fin 4, s.host.ladders[k] ≠ none) :
    hostReadFailed tag p s = hostFailed tag p 0 s := by
  unfold hostReadFailed; split
  · rfl
  · rename_i hlimit
    have none_free : lowestIndex Option.isNone s.host.ladders = none :=
      (lowestIndex_eq_none_iff _ _).2 fun k => by
        simpa using Option.isSome_iff_ne_none.2 ((h.resolve_left hlimit) k)
    rw [none_free]

/-- With a retry limit, a FAILED read starts the lowest free ladder (R44, R45). -/
theorem hostReadFailed_of_ladder {k : Fin 4} (tag : HostTag) (p : PhysLine) (hlimit : s.params.retryLimit ≠ 0)
    (hk : s.host.ladders[k] = none) (hlow : ∀ j : Fin 4, j < k → s.host.ladders[j] ≠ none) :
    hostReadFailed tag p s = startLadder k tag p s := by
  have lowest : lowestIndex Option.isNone s.host.ladders = some k :=
    (lowestIndex_eq_some_iff _ _ _).2 ⟨Option.isNone_iff_eq_none.2 hk, fun j hj => by
      simpa using Option.isSome_iff_ne_none.2 (hlow j hj)⟩
  rw [hostReadFailed, if_neg hlimit, lowest]

/-- A ladder starts with its limit, its lock and its first retry waiting; its request's record names it (R45). -/
theorem startLadder_eq {r : HostRec} (k : Fin 4) (p : PhysLine) (hr : s.host.recs[tag] = some r) :
    startLadder k tag p s = { s with
      host := { s.host with
        recs := s.host.recs.set tag (some { r with place := .ladder k })
        ladders := s.host.ladders.set k (some ⟨tag, p, 0, s.params.retryLimit⟩)
        followOns := s.host.followOns ++ [retryIssue k tag s.host.era p] }
      locks := { s.locks with ladders := s.locks.ladders.set k (some p) } } := by
  have moved : s.host.recs[tag].map (fun r => { r with place := Place.ladder k }) =
      some { r with place := .ladder k } := by rw [hr]; rfl
  rw [← moved]; rfl

/-! ### The statement -/

/-- Settles O45. Each clause names the state that completing the request answers, and that state is settled. -/
theorem hostReadsComplete : Obligations.HostReadsComplete := by
  rintro s d tag p re data freed rfl gone rfl answered corrected final
  have hfixed (t : State) (ht : t.params = s.params) : hostFixed p t = corrected t := by rw [hostFixed_eq, ht]
  refine ⟨fun ht => ?_, fun k used limit hk ht => ?_⟩
  · have done {c : Condition} {res : ReadResult} (hc : readResult c = some res) {u : State}
        (hu : hostReadDone tag p res data (setTag d .free s) = u) (hs : settled u = true) :
        exec (.downstreamResponse d c data) s = .next u :=
      exec_response_of_settled ht
        ((completeIssue_of_hostRead tag p re data (setTag d .free s) hc).trans hu) hs
    refine ⟨done rfl rfl, done rfl rfl, fun u hu => done rfl ?_, fun h u hu => done rfl ?_,
      fun k hlimit hk hlow r hr u hu => done rfl ?_⟩
    · exact (hfixed (answered .good data) rfl).trans hu.symm
    · exact (hostReadFailed_of_no_ladder (s := setTag d .free s) tag p h).trans hu.symm
    · exact (hostReadFailed_of_ladder (s := setTag d .free s) tag p hlimit hk hlow).trans
        ((startLadder_eq (s := setTag d .free s) k p hr).trans hu.symm)
  · intro ended recovered
    have done {c : Condition} {res : ReadResult} (hc : readResult c = some res) {u : State}
        (hu : ladderDone k ⟨tag, p, used, limit⟩ res data (setTag d .free s) = u) (hs : settled u = true) :
        exec (.downstreamResponse d c data) s = .next u :=
      exec_response_of_settled ht
        ((completeIssue_of_ladderRetry (t := setTag d .free s) tag p re data hk hc).trans hu) hs
    refine ⟨fun u hu => done (res := .clean) rfl hu.symm, fun u hu => done rfl ?_,
      fun u hu => done (res := .poisoned) rfl hu.symm,
      fun hlt u hu => done rfl ?_, fun heq u hu => done rfl ?_⟩
    · exact (congrArg (endLadder k) (hfixed recovered rfl)).trans hu.symm
    · exact (if_pos hlt).trans hu.symm
    · exact (if_neg (Nat.not_lt.2 heq.ge)).trans hu.symm

end Sys2Proof.Machine

namespace Sys2Proof.Machine

/-! ## The foreground granted

What the arbiter hands to memory when it chooses the foreground: a follow-on item as it stands, or the first request
item at its resolution. -/

variable {s : State} {d : PortTag} {tag : HostTag} {r : HostRec}

/-! ### What the head presents -/

/-- A follow-on item at the head is presented (R74). -/
theorem fgPresented_of_followOn {i : Issue} {rest : List Issue} (hf : s.host.followOns = i :: rest) :
    fgPresented s = true := by
  rw [fgPresented, hf]

/-- A request item at the head is presented when it is free to go and does not wait (R41, R59, R74). -/
theorem fgPresented_of_request {rest : List HostTag} (hf : s.host.followOns = [])
    (hq : s.host.requests = tag :: rest) (hw : s.host.headWaits = false) (hr : s.host.recs[tag] = some r)
    (hfree : r.op = .read ∨ s.locks.lockedAt (resolve s.geom s.remap true r.line) = false) :
    fgPresented s = true := by
  have hr : s.host.recs[tag] = some r := hr
  have free : requestFree s tag = true := by
    simp only [requestFree, hr, Bool.or_eq_true, beq_iff_eq, Bool.not_eq_true']; exact hfree
  simp only [fgPresented, hf, hq, hw, free]; rfl

/-- Alone, the foreground is granted the lowest FREE tag, and the share counter is 0 (R74, R75). -/
theorem exec_arbiterGrant_of_foreground (hm : s.mode ≠ .startup) (hd : s.port.LowestFree d)
    (hb : bgPresented s = false) (hf : fgPresented s = true) :
    exec .arbiterGrant s = .next (setShare 0 (grantForeground d s)) := by
  have chosen : choosesForeground s = true := by simp [choosesForeground, hf, hb]
  refine congrArg Host.Outcome.next ?_
  rw [arbitrate_of_presented hm hd (.inl hf), grantOn, if_pos chosen, hb]; rfl

/-! ### Follow-on items -/

/-- A follow-on item is granted as it stands (R42). -/
theorem grantForeground_of_followOn {i : Issue} {rest : List Issue} (d : PortTag)
    (hf : s.host.followOns = i :: rest) :
    grantForeground d s = issueOn d i (countLadder i (s.setHost { s.host with followOns := rest })) := by
  rw [grantForeground, hf]

/-- A grant that is no ladder's retry on its first issue counts on no ladder (R45). -/
theorem countLadder_of_other {i : Issue} (h : (∀ k t e, i.origin ≠ .ladderRetry k t e) ∨ i.reissue = true)
    (s : State) : countLadder i s = s := by
  unfold countLadder; split
  · rename_i k t e ho
    exact if_pos (h.resolve_left fun hn => hn k t e ho)
  · rfl

/-- A ladder's retry on its first issue counts as used (R45). -/
theorem countLadder_of_retry {i : Issue} {k : Fin 4} {t : HostTag} {e : Nat} {l : Ladder}
    (ho : i.origin = .ladderRetry k t e) (hi : i.reissue = false) (hl : s.host.ladders[k] = some l) :
    countLadder i s = setLadder k (some { l with used := l.used + 1 }) s := by
  have hl : s.host.ladders[k] = some l := hl
  simp only [countLadder, ho, hi, hl]; rfl

/-! ### Request items -/

/-- The first request item is granted at its resolution (R41). -/
theorem grantForeground_of_request {rest : List HostTag} (d : PortTag) (hf : s.host.followOns = [])
    (hq : s.host.requests = tag :: rest) (hr : s.host.recs[tag] = some r) :
    grantForeground d s = issueRequest d tag r (s.setHost { s.host with requests := rest }) := by
  have hr : s.host.recs[tag] = some r := hr
  simp only [grantForeground, hf, hq, State.setHost_host, hr]

/-- A read granted is IN FLIGHT at its line (R41). -/
theorem issueRequest_of_read (d : PortTag) (tag : HostTag) (ho : r.op = .read) (s : State) :
    issueRequest d tag r s = issueOn d
      ⟨⟨(resolve s.geom s.remap false r.line).first, .read⟩, .hostRead tag s.host.era, false⟩
      (setRecord tag (some { r with
        place := .inFlight, resolution := some (resolve s.geom s.remap false r.line) }) s) := by
  rw [issueRequest, ho]; rfl

/-- The state with a write IN FLIGHT at its resolution and its source half granted (R41). -/
def writeIssued (d : PortTag) (tag : HostTag) (r : HostRec) (res : Resolution) (data : LineData) (m : ByteMask)
    (s : State) : State :=
  issueOn d (halfIssue tag .source s.host.era res.first data m)
    (setRecord tag (some { r with
      place := .inFlight, resolution := some res, sourceHalf := some .pending
      slotHalf := res.second.map fun _ => .pending }) s)

/-- A write of one line granted is its source half alone (R41). -/
theorem issueRequest_of_write {data : LineData} {m : ByteMask} {p : PhysLine} (d : PortTag) (tag : HostTag)
    (ho : r.op = .write data m) (hp : resolve s.geom s.remap true r.line = ⟨p, none⟩) :
    issueRequest d tag r s = writeIssued d tag r ⟨p, none⟩ data m s := by
  simp only [issueRequest, writeIssued, ho, hp]; rfl

/-- A dual write granted is its source half, and its slot half joins the follow-on items (R41). -/
theorem issueRequest_of_dualWrite {data : LineData} {m : ByteMask} {p q : PhysLine} (d : PortTag) (tag : HostTag)
    (ho : r.op = .write data m) (hp : resolve s.geom s.remap true r.line = ⟨p, some q⟩) :
    issueRequest d tag r s = pushFollowOn (halfIssue tag .slot s.host.era q data m)
      (writeIssued d tag r ⟨p, some q⟩ data m s) := by
  simp only [issueRequest, writeIssued, ho, hp]; rfl

/-! ### The statement -/

/-- Settles O41. The head is presented, so it is granted, as a follow-on item or at its resolution. -/
theorem foregroundHeadIsIssued : Obligations.ForegroundHeadIsIssued := by
  intro s d hm hd hb
  refine ⟨fun i rest hf => ?_, fun tag rest r hf hq hw hr => ?_⟩
  · have granted := exec_arbiterGrant_of_foreground hm hd hb (fgPresented_of_followOn hf)
    rw [grantForeground_of_followOn d hf] at granted
    refine ⟨fun h => ?_, fun k t e l ho hi hl => ?_⟩
    · rw [granted, countLadder_of_other h]; rfl
    · rw [granted, countLadder_of_retry ho hi (by exact hl)]; rfl
  · have granted (hfree : r.op = .read ∨ s.locks.lockedAt (resolve s.geom s.remap true r.line) = false) :
        exec .arbiterGrant s =
          .next (setShare 0 (issueRequest d tag r (s.setHost { s.host with requests := rest }))) := by
      rw [exec_arbiterGrant_of_foreground hm hd hb (fgPresented_of_request hf hq hw hr hfree),
        grantForeground_of_request d hf hq hr]
    refine ⟨?_, fun data m p ho hp hl => ?_, fun data m p q ho hp hl hl' => ?_⟩
    · rintro ho p rfl
      rw [granted (.inl ho), issueRequest_of_read d tag ho]; rfl
    · have free : s.locks.lockedAt (resolve s.geom s.remap true r.line) = false := by
        simp [hp, Locks.lockedAt, hl]
      rw [granted (.inr free), issueRequest_of_write d tag ho (by exact hp)]; rfl
    · have free : s.locks.lockedAt (resolve s.geom s.remap true r.line) = false := by
        simp [hp, Locks.lockedAt, hl, hl']
      rw [granted (.inr free), issueRequest_of_dualWrite d tag ho (by exact hp), pushFollowOn]
      have alone : (writeIssued d tag r ⟨p, some q⟩ data m
          (s.setHost { s.host with requests := rest })).host.followOns = [] := hf
      rw [alone]; rfl

end Sys2Proof.Machine

namespace Sys2Proof.Machine

/-! ## Capacities and ranges

Most acts touch nothing that `WithinLimits` bounds. The rest carry their bound as a guard (`Act`), or change the Remap
Table, where only the copied counts are bounded. -/

variable {s t u v : State}

/-! ### What the limits speak of -/

/-- The copied counts stay bounded where the cursor and the table stay. -/
theorem CopySound.congr (h : CopySound s) (hc : t.copy.cursor = s.copy.cursor) (hr : t.remap = s.remap) :
    CopySound t :=
  ⟨hc ▸ h.cursor, hr ▸ h.copied⟩

/-- `WithinLimits` speaks of the Hold List, the Retirement Queue, the share counter, the Health Table, the parameters,
the geometry, the cursor and the Remap Table. -/
theorem WithinLimits.congr (h : WithinLimits s) (hh : t.hold = s.hold) (hq : t.retire = s.retire)
    (hp : t.port.share = s.port.share) (he : t.health = s.health) (hk : t.params = s.params) (hg : t.geom = s.geom)
    (hc : t.copy.cursor = s.copy.cursor) (hr : t.remap = s.remap) : WithinLimits t :=
  ⟨hh ▸ h.hold, hq ▸ h.retire, hp ▸ h.share, he ▸ h.health, hk ▸ h.params, hg ▸ h.geom, h.copy.congr hc hr⟩

/-- A table with bounded copied counts may take the Remap Table's place (R17). -/
theorem WithinLimits.setRemap {r : Remap} (h : WithinLimits s) (hr : ∀ i : Fin 128, ∀ b ∈ r[i], b.copied ≤ 64) :
    WithinLimits (s.setRemap r) :=
  { h with copy := ⟨h.copy.cursor, hr⟩ }

/-- A copy context with its cursor in range may take the copy engine's place (Table 7-1). -/
theorem WithinLimits.setCopy {c : CopyCtx} (h : WithinLimits s) (hc : c.cursor ≤ 63) : WithinLimits (s.setCopy c) :=
  { h with copy := ⟨hc, h.copy.copied⟩ }

/-- A list of at most 8 spans may take the Retirement Queue's place (R89). -/
theorem WithinLimits.setRetire {q : List Queued} (h : WithinLimits s) (hq : q.length ≤ 8) :
    WithinLimits (s.setRetire q) :=
  { h with retire := hq, copy := h.copy.congr rfl rfl }

/-- An entry set with a bounded copied count leaves every copied count bounded. -/
theorem copied_le_of_set {r : Remap} {e : Fin 128} {c : Binding} (hr : ∀ i : Fin 128, ∀ b ∈ r[i], b.copied ≤ 64)
    (hc : c.copied ≤ 64) : ∀ i : Fin 128, ∀ b ∈ (r.set e (some c))[i], b.copied ≤ 64 := by
  intro i b hb
  rw [vector_set_getElem] at hb
  split at hb
  · exact Option.some.inj hb ▸ hc
  · exact hr i b hb

/-! ### The acts -/

/-- Setting the journaled flags leaves the copied counts (R24). -/
theorem journalFlags_copied_le {r : Remap} (w : Bool) (hr : ∀ i : Fin 128, ∀ b ∈ r[i], b.copied ≤ 64) :
    ∀ i : Fin 128, ∀ b ∈ (journalFlags w r)[i], b.copied ≤ 64 := by
  intro i b hb
  rw [journalFlags, tableMap_getElem] at hb
  obtain ⟨c, hc, rfl⟩ := Option.map_eq_some_iff.1 hb
  split <;> exact hr i c hc

/-- No act leaves the limits. -/
theorem Act.keeps_withinLimits (h : Act u v) (hu : WithinLimits u) : WithinLimits v := by
  cases h with
  | params p hp => exact { hu with params := hp hu.params, copy := hu.copy.congr rfl rfl }
  | geom g hg _ => exact { hu with geom := hg, copy := hu.copy.congr rfl rfl }
  | hold l hl => exact { hu with hold := hl hu.hold, copy := hu.copy.congr rfl rfl }
  | port p hp => exact { hu with share := hp hu.share, copy := hu.copy.congr rfl rfl }
  | health x hx => exact { hu with health := hx hu.health, copy := hu.copy.congr rfl rfl }
  | journaled w => exact hu.setRemap (journalFlags_copied_le w hu.copy.copied)
  | jobEntry j f _ _ hf =>
    refine hu.setRemap fun i b hb => ?_
    rcases modifyEntry_mem hb with hb | ⟨c, hc, -, rfl⟩
    · exact hu.copy.copied i b hb
    · exact hf c hu.copy.cursor (hu.copy.copied i c hc)
  | freeJob j _ => exact hu.setRemap fun i b hb => hu.copy.copied i b (freeJobEntry_mem hb)
  | restore r e _ _ _ _ => exact hu.setRemap (copied_le_of_set hu.copy.copied (Nat.le_refl 64))
  | enqueue n o ha _ =>
    obtain ⟨-, -, -, room⟩ := admission_taken ha
    exact hu.setRetire (by simpa using room)
  | dequeue q hq => exact hu.setRetire (hq.length_le.trans hu.retire)
  | copy c hc _ => exact hu.setCopy (hc hu.copy.cursor)
  | start q rest e k c _ _ hq _ _ hc _ _ =>
    have shorter : rest.length ≤ 8 := by
      have := hu.retire
      rw [hq, List.length_cons] at this; omega
    exact ((hu.setRetire shorter).setRemap (copied_le_of_set hu.copy.copied (Nat.zero_le 64))).setCopy (by omega)
  | _ => exact hu.congr rfl rfl rfl rfl rfl rfl rfl rfl

/-! ### A step -/

/-- A full reset gives every bounded field its value at reset (R1). -/
theorem WithinLimits.fullReset (hold en : Bool) (addr : BitVec 2) (s : State) :
    WithinLimits (fullResetState hold en addr s) := by
  obtain ⟨-, limits, -⟩ := resetMeetsInvariants
  cases hold with
  | true => exact limits.congr rfl rfl rfl rfl rfl rfl rfl rfl
  | false =>
    cases en with
    | true => rw [fullResetState_of_store]; exact limits.congr rfl rfl rfl rfl rfl rfl rfl rfl
    | false => rw [fullResetState_of_no_store]; exact limits.congr rfl rfl rfl rfl rfl rfl rfl rfl

/-- Settles O7: a full reset meets the limits, and every other command is a chain of acts, none of which leaves them. -/
theorem limitsAreKept : Obligations.LimitsAreKept := by
  intro s t hs hx
  unfold step at hx
  split at hx
  · cases hx; exact hs
  · rename_i c rest _
    by_cases hc : ∀ h e a, c ≠ .fullReset h e a
    · exact (acts_of_exec hc hx).keeps (fun _ _ => Act.keeps_withinLimits)
        (hs.congr rfl rfl rfl rfl rfl rfl rfl rfl)
    · simp only [not_forall, not_not] at hc
      obtain ⟨h, e, a, rfl⟩ := hc
      cases hx; exact WithinLimits.fullReset h e a _

end Sys2Proof.Machine

namespace Sys2Proof.Machine

/-! ## Diversion into the Hold List, and the release of a line

What a diversion takes and where it puts it (R59), what the last holder of a line lets go (R60), and that a waiting head
looked at again fares as it would by its own row. -/

variable {s t : State} {tag : HostTag} {rest : List HostTag} {r : HostRec} {h : Holder} {p : PhysLine}

/-! ### The Hold List in arrival order -/

/-- A held request put at its place is one more among those held (R57). -/
theorem insertHeld_perm (g : HostPort) (x : HostTag) (l : List HostTag) : (insertHeld g x l).Perm (x :: l) := by
  induction l with
  | nil => rfl
  | cons y l ih =>
    unfold insertHeld; split
    · rfl
    · exact (ih.cons y).trans (.swap x y l)

/-- A held request put at its place keeps the list in arrival order (R57). -/
theorem insertHeld_sorted (g : HostPort) (x : HostTag) {l : List HostTag}
    (hl : l.Pairwise fun a b => g.arrivalOf a ≤ g.arrivalOf b) :
    (insertHeld g x l).Pairwise fun a b => g.arrivalOf a ≤ g.arrivalOf b := by
  induction l with
  | nil => exact List.pairwise_singleton _ _
  | cons y l ih =>
    obtain ⟨hy, hl'⟩ := List.pairwise_cons.1 hl
    unfold insertHeld; split
    · rename_i hlt
      refine List.pairwise_cons.2 ⟨fun z hz => ?_, hl⟩
      rcases List.mem_cons.1 hz with rfl | hz
      · exact hlt.le
      · exact hlt.le.trans (hy z hz)
    · rename_i hge
      refine List.pairwise_cons.2 ⟨fun z hz => ?_, ih hl'⟩
      rcases List.mem_cons.1 ((insertHeld_perm g x l).mem_iff.1 hz) with rfl | hz
      · exact Nat.not_lt.1 hge
      · exact hy z hz

/-- Only the records tell the arrival order (R57). -/
theorem insertHeld_congr {f g : HostPort} (hr : f.recs = g.recs) (x : HostTag) (l : List HostTag) :
    insertHeld f x l = insertHeld g x l := by
  have same : f.arrivalOf = g.arrivalOf := by funext y; rw [HostPort.arrivalOf, HostPort.arrivalOf, hr]
  induction l with
  | nil => rfl
  | cons y l ih => rw [insertHeld, insertHeld, same, ih]

/-- The Hold List with some requests put at their places (R57, R59). -/
def insertAll (g : HostPort) (tags l : List HostTag) : List HostTag := tags.foldl (fun l x => insertHeld g x l) l

/-- Putting requests at their places adds them to those held, once each (R57, R59). -/
theorem insertAll_perm (g : HostPort) (tags l : List HostTag) : (insertAll g tags l).Perm (l ++ tags) := by
  induction tags generalizing l with
  | nil => rw [List.append_nil]; rfl
  | cons x tags ih =>
    calc List.Perm (insertAll g tags (insertHeld g x l)) (insertHeld g x l ++ tags) := ih _
      List.Perm _ (x :: l ++ tags) := (insertHeld_perm g x l).append_right tags
      List.Perm _ (l ++ x :: tags) := List.perm_middle.symm

/-- Putting requests at their places keeps the list in arrival order (R57). -/
theorem insertAll_sorted (g : HostPort) (tags : List HostTag) {l : List HostTag}
    (hl : l.Pairwise fun a b => g.arrivalOf a ≤ g.arrivalOf b) :
    (insertAll g tags l).Pairwise fun a b => g.arrivalOf a ≤ g.arrivalOf b := by
  induction tags generalizing l with
  | nil => exact hl
  | cons x tags ih => exact ih (insertHeld_sorted g x hl)

theorem insertAll_congr {f g : HostPort} (hr : f.recs = g.recs) (tags l : List HostTag) :
    insertAll f tags l = insertAll g tags l := by
  simp only [insertAll, insertHeld_congr hr]

/-- Requests that leave the request items for the Hold List are HELD, at their places by arrival, and counted (R59,
R63). -/
theorem holdTags_of_requests (tags items : List HostTag) (w : Bool) (s : State) :
    holdTags tags (s.setHost { s.host with requests := items, headWaits := w }) = { s with
      host := { s.host with recs := placeAll tags .held s.host.recs, requests := items, headWaits := w }
      hold := insertAll s.host tags s.hold
      stats := { s.stats with holds := s.stats.holds + BitVec.ofNat 32 tags.length } } := by
  rw [← insertAll_congr (f := { s.host with requests := items, headWaits := w }) (g := s.host) rfl]; rfl

/-! ### A head diverted -/

/-- The first request item is the head write when its record is a write (R59). -/
theorem headWrite_eq_some (hq : s.host.requests = tag :: rest) (hr : s.host.recs[tag] = some r) (ho : r.op ≠ .read) :
    headWrite s = some (tag, r) := by
  have hr : s.host.recs[tag] = some r := hr
  simp only [headWrite, hq, hr, if_neg ho]

/-- A diversion carries the head and the later request items for its host line (R59). -/
theorem divertedTags_eq (hq : s.host.requests = tag :: rest) (hr : s.host.recs[tag] = some r) (ho : r.op ≠ .read) :
    divertedTags s = tag :: rest.filter (s.host.isFor r.line.toNat) := by
  have head : s.host.isFor r.line.toNat tag = true := HostPort.isFor_iff.2 ⟨r, hr, rfl⟩
  simp only [divertedTags, headWrite_eq_some hq hr ho, hq, List.filter_cons_of_pos head]

/-- The request items that a diversion leaves are those for other host lines (R59). -/
theorem requests_not_diverted (hq : s.host.requests = tag :: rest) (hr : s.host.recs[tag] = some r)
    (ho : r.op ≠ .read) : s.host.requests.filter (fun x => !(divertedTags s).contains x) =
      rest.filter (fun x => !s.host.isFor r.line.toNat x) := by
  have head : s.host.isFor r.line.toNat tag = true := HostPort.isFor_iff.2 ⟨r, hr, rfl⟩
  have gone : (!(divertedTags s).contains tag) = false := by rw [divertedTags_eq hq hr ho]; simp
  rw [hq, List.filter_cons_of_neg (by rw [gone]; decide)]
  refine List.filter_congr fun x hx => ?_
  rw [divertedTags_eq hq hr ho]
  by_cases hf : s.host.isFor r.line.toNat x = true
  · simp [hf, hx]
  · have : x ≠ tag := fun e => hf (e ▸ head)
    simp [hf, this]

/-- Without room for what a diversion carries, the head waits (R59). -/
theorem divertHead_of_full (h : 8 < s.hold.length + (divertedTags s).length) :
    divertHead s = s.setHost { s.host with headWaits := true } := if_neg (by omega)

/-- With room for it, what a diversion carries leaves the request items for the Hold List (R59). -/
theorem divertHead_of_room (h : s.hold.length + (divertedTags s).length ≤ 8) :
    divertHead s = holdTags (divertedTags s) (s.setHost { s.host with
      requests := s.host.requests.filter (fun x => !(divertedTags s).contains x), headWaits := false }) := if_pos h

/-- HOLD_DIVERSION diverts a locked head that does not wait (R59). -/
theorem exec_holdDiversion (hf : s.host.followOns = []) (hw : s.host.headWaits = false) (hl : headLocked s = true) :
    exec .holdDiversion s = .next (divertHead s) := by
  have due : diversionDue s = true := by rw [diversionDue, hf, hw, hl]; rfl
  exact congrArg Host.Outcome.next (if_pos due)

/-- Settles O43. The diversion carries the head and the later items for its line, each put at its place by arrival. -/
theorem lockedHeadIsDiverted : Obligations.LockedHeadIsDiverted := by
  rintro s tag rest r hf hw hq hr ho hl carried rfl
  have carries := divertedTags_eq hq hr ho
  have diverted := exec_holdDiversion hf hw (by rw [headLocked, headWrite_eq_some hq hr ho]; exact hl)
  refine ⟨fun full => ?_, fun room => ⟨placeAll (divertedTags s) .held s.host.recs,
    insertAll s.host (divertedTags s) s.hold, ?_, ?_, ?_, ?_⟩⟩
  · rw [diverted, divertHead_of_full (by rw [carries, List.length_cons]; omega)]; rfl
  · rw [diverted, divertHead_of_room (by rw [carries, List.length_cons]; omega), requests_not_diverted hq hr ho,
      holdTags_of_requests, carries, List.length_cons, Nat.add_comm 1, ← hw]
  · rw [carries]; exact placeAll_getElem
  · rw [carries]; exact insertAll_perm _ _ _
  · exact insertAll_sorted _ _

/-! ### A holder leaves -/

/-- The state with the last holder off its line, and the requests held for the host line that it serves released (R55,
R60). -/
def released (h : Holder) (p : PhysLine) (s : State) : State :=
  let t := s.setLocks (s.locks.setLine h none)
  match servedLine s p with
  | some line => releaseLine line t
  | none => t

/-- A line is still locked without a holder exactly when another holder holds it (R55). -/
theorem locked_setLine_none_iff (l : Locks) (h : Holder) (p : PhysLine) :
    (l.setLine h none).locked p = true ↔ ∃ k, k ≠ h ∧ l.lineOf k = some p := by
  rw [Locks.locked_iff]
  refine exists_congr fun k => ?_
  rw [Locks.setLine_lineOf]
  by_cases hk : h = k
  · simp [hk]
  · simp [hk, Ne.symm hk]

/-- Once its last holder leaves, a line is locked no more (R55). -/
theorem not_locked_of_last (hk : ∀ k, k ≠ h → s.locks.lineOf k ≠ some p) :
    (s.locks.setLine h none).locked p = false := by
  rw [Bool.eq_false_iff, Ne, locked_setLine_none_iff]
  rintro ⟨k, hne, he⟩
  exact hk k hne he

/-- With another holder on the line, leaving it takes the holder's lock and nothing else (R55). -/
theorem removeHolder_of_shared (hp : s.locks.lineOf h = some p) (hk : ∃ k, k ≠ h ∧ s.locks.lineOf k = some p) :
    removeHolder h s = s.setLocks (s.locks.setLine h none) := by
  have stays : (s.locks.setLine h none).locked p = true := (locked_setLine_none_iff _ _ _).2 hk
  simp only [removeHolder, hp, State.setLocks_locks, stays, if_true]

/-- The last holder leaving releases the line, and a waiting head is looked at again (R55, R60). -/
theorem removeHolder_of_last (hp : s.locks.lineOf h = some p) (hk : ∀ k, k ≠ h → s.locks.lineOf k ≠ some p) :
    removeHolder h s = recheckHead (released h p s) := by
  have served : servedLine (s.setLocks (s.locks.setLine h none)) p = servedLine s p := rfl
  simp only [removeHolder, released, hp, State.setLocks_locks, not_locked_of_last hk, served]
  cases servedLine s p <;> rfl

/-! ### A waiting head looked at again -/

/-- The state with the head marked as waiting or not (R59). -/
def markHead (w : Bool) (s : State) : State := s.setHost { s.host with headWaits := w }

/-- Releasing a line leaves the mark on the head. -/
theorem released_headWaits (h : Holder) (p : PhysLine) (s : State) :
    (released h p s).host.headWaits = s.host.headWaits := by
  unfold released; dsimp only; split <;> rfl

/-- Releasing a line moves no follow-on item (R60). -/
theorem released_followOns (h : Holder) (p : PhysLine) (s : State) :
    (released h p s).host.followOns = s.host.followOns := by
  unfold released; dsimp only; split <;> rfl

/-- The release of a line does not look at the mark on the head. -/
theorem released_markHead (h : Holder) (p : PhysLine) (w : Bool) (s : State) :
    released h p (markHead w s) = markHead w (released h p s) := by
  have served : servedLine (markHead w s) p = servedLine s p := rfl
  simp only [released, served]
  cases servedLine s p <;> rfl

/-- What is done to the head does not turn on its mark, and sets it (R59). -/
theorem divertHead_markHead (w : Bool) (s : State) : divertHead (markHead w s) = divertHead s := by
  have carries : divertedTags (markHead w s) = divertedTags s := rfl
  by_cases room : s.hold.length + (divertedTags s).length ≤ 8
  · rw [divertHead_of_room (by exact room), divertHead_of_room room, carries]; rfl
  · rw [divertHead_of_full (by exact Nat.not_le.1 room), divertHead_of_full (Nat.not_le.1 room)]; rfl

/-- A head that does not wait is not looked at (R59). -/
theorem recheckHead_of_unmarked (h : s.host.headWaits = false) : recheckHead s = s := by
  rw [recheckHead, h]; rfl

/-- A waiting head is diverted, or waits no more, as its line is locked or not (R59). -/
theorem recheckHead_of_marked (h : s.host.headWaits = true) :
    recheckHead s = if headLocked s then divertHead s else markHead false s := if_pos h

/-- Settles O44: the holder's own line goes, and with the last holder what `released` says; a waiting head is then
looked at, with the mark that HOLD_DIVERSION does not look at. -/
theorem lastHolderReleasesTheLine : Obligations.LastHolderReleasesTheLine := by
  rintro s h p hp t rfl
  refine ⟨⟨?_, fun k hk => ?_⟩, fun hk => ?_, fun line hw hk hline => ?_, ?_⟩
  · rw [removeHolder_locks, Locks.setLine_lineOf, if_pos rfl]
  · rw [removeHolder_locks, Locks.setLine_lineOf, if_neg (Ne.symm hk)]
  · rw [removeHolder_of_shared hp hk]
    exact ⟨(locked_setLine_none_iff _ _ _).2 hk, rfl, rfl⟩
  · have gone : removeHolder h s = releaseLine line (s.setLocks (s.locks.setLine h none)) := by
      rw [removeHolder_of_last hp hk, recheckHead_of_unmarked ((released_headWaits h p s).trans hw), released, hline]
    rw [gone]
    exact ⟨not_locked_of_last hk, rfl, rfl,
      fun x hx hf => (placeAll_getElem x).trans (if_pos (List.mem_filter.2 ⟨hx, hf⟩))⟩
  · intro hw hk v hv
    have quiet : removeHolder h (markHead false s) = markHead false (released h p s) := by
      rw [removeHolder_of_last (s := markHead false s) hp hk, released_markHead, recheckHead_of_unmarked rfl]
    have looked : removeHolder h s = if headLocked (markHead false (released h p s)) then
        divertHead (markHead false (released h p s)) else markHead false (released h p s) := by
      rw [removeHolder_of_last hp hk, recheckHead_of_marked ((released_headWaits h p s).trans hw),
        divertHead_markHead]; rfl
    obtain rfl : v = markHead false (released h p s) := hv.trans quiet
    refine ⟨fun hl => ?_, fun hl hf => ?_⟩
    · rw [looked, hl]; rfl
    · rw [looked, if_pos hl]
      exact exec_holdDiversion ((released_followOns h p s).trans hf) rfl hl

end Sys2Proof.Machine

namespace Sys2Proof.Machine

/-! ## The arbiter's choice between the classes

Which class a grant serves, by what is presented and the share counter, and what the grant of either class makes of the
state. A foreground grant goes through the lemmas of the foreground alone. -/

variable {s : State} {d : PortTag} {tag : HostTag} {r : HostRec} {i : Issue}

/-! ### No grant -/

/-- With no tag FREE there is no lowest one (R69). -/
theorem freeTag_eq_none {p : Port} (h : ∀ d : PortTag, p.tags[d] ≠ .free) : freeTag p = none :=
  (lowestIndex_eq_none_iff _ _).2 fun e => beq_eq_false_iff_ne.2 (h e)

/-- With no tag FREE nothing is granted (R74). -/
theorem arbitrate_of_no_free_tag (h : ∀ d : PortTag, s.port.tags[d] ≠ .free) : arbitrate s = s := by
  unfold arbitrate; split
  · rw [freeTag_eq_none h]
  · rfl

/-- With nothing presented nothing is granted (R74). -/
theorem arbitrate_of_nothing_presented (hf : fgPresented s = false) (hb : bgPresented s = false) :
    arbitrate s = s := by
  simp only [arbitrate, hf, hb, Bool.or_self, Bool.and_false]; rfl

/-! ### The class chosen -/

/-- Below the share the foreground is granted beside a background request, and the counter rises (R75). -/
theorem exec_arbiterGrant_of_share (hm : s.mode ≠ .startup) (hd : s.port.LowestFree d)
    (hb : bgPresented s = true) (hshare : s.port.share < s.params.bgShare) (hf : fgPresented s = true) :
    exec .arbiterGrant s = .next (setShare (min 16 (s.port.share + 1)) (grantForeground d s)) := by
  have chosen : choosesForeground s = true := by simp [choosesForeground, hf, hshare]
  refine congrArg Host.Outcome.next ?_
  rw [arbitrate_of_presented hm hd (.inl hf), grantOn, if_pos chosen, hb]; rfl

/-- With no foreground, or at the share, the background is granted, and the counter is 0 (R75). -/
theorem exec_arbiterGrant_of_background (hm : s.mode ≠ .startup) (hd : s.port.LowestFree d)
    (hb : bgPresented s = true) (hturn : fgPresented s = false ∨ s.params.bgShare ≤ s.port.share) :
    exec .arbiterGrant s = .next (setShare 0 (grantBackground d s)) := by
  have passed : choosesForeground s = false := by
    rcases hturn with hf | hshare
    · simp [choosesForeground, hf]
    · simp [choosesForeground, hb, Nat.not_lt.2 hshare]
  refine congrArg Host.Outcome.next ?_
  rw [arbitrate_of_presented hm hd (.inr hb), grantOn, passed]; rfl

/-! ### The foreground's request -/

/-- What the foreground presents is a follow-on item, or the first request item with its record (R74). -/
theorem head_of_fgPresented (h : fgPresented s = true) :
    (∃ i rest, s.host.followOns = i :: rest) ∨
      s.host.followOns = [] ∧ ∃ tag rest r, s.host.requests = tag :: rest ∧ s.host.recs[tag] = some r := by
  unfold fgPresented at h; split at h
  next i rest hf => exact .inl ⟨i, rest, hf⟩
  next hf =>
    refine .inr ⟨hf, ?_⟩
    split at h
    · exact absurd h Bool.false_ne_true
    next tag rest hq =>
      cases hr : s.host.recs[tag] with
      | none =>
        have hr : s.host.recs[tag] = none := hr
        simp [requestFree, hr] at h
      | some r => exact ⟨tag, rest, r, hq, hr⟩

/-- The downstream request of a request item: a READ, or the source half of a WRITE, at its line (R41). -/
def requestIssue (s : State) (tag : HostTag) (r : HostRec) : Issue :=
  match r.op with
  | .read => ⟨⟨(resolve s.geom s.remap false r.line).first, .read⟩, .hostRead tag s.host.era, false⟩
  | .write data m => halfIssue tag .source s.host.era (resolve s.geom s.remap true r.line).first data m

/-- The grant of a request item takes the tag for its downstream request, and changes the host port beside it, not
the request items that remain (R41). -/
theorem issueRequest_frame (d : PortTag) (tag : HostTag) (r : HostRec) (s : State) :
    ∃ H : HostPort, issueRequest d tag r s = issueOn d (requestIssue s tag r) (s.setHost H) ∧
      H.requests = s.host.requests := by
  cases ho : r.op with
  | read =>
    rw [issueRequest_of_read d tag ho, requestIssue, ho]
    exact ⟨_, rfl, rfl⟩
  | write data m =>
    cases hp : resolve s.geom s.remap true r.line with
    | mk p second =>
      rw [requestIssue, ho, hp]
      cases second with
      | none => rw [issueRequest_of_write d tag ho hp]; exact ⟨_, rfl, rfl⟩
      | some q => rw [issueRequest_of_dualWrite d tag ho hp]; exact ⟨_, rfl, rfl⟩

/-- A foreground grant takes the tag for the request at the head, which leaves the host issue queue; beside the port
it changes the host port alone (R41, R42). -/
theorem grantForeground_frame (d : PortTag) (h : fgPresented s = true) :
    ∃ (i : Issue) (H : HostPort), grantForeground d s = issueOn d i (s.setHost H) ∧
      (∀ f rest, s.host.followOns = f :: rest →
        i = f ∧ H.followOns = rest ∧ H.requests = s.host.requests) ∧
      (∀ tag rest r, s.host.followOns = [] → s.host.requests = tag :: rest → s.host.recs[tag] = some r →
        H.requests = rest ∧ i = requestIssue s tag r) := by
  rcases head_of_fgPresented h with ⟨i, rest, hf⟩ | ⟨hf, tag, rest, r, hq, hr⟩
  · obtain ⟨L, hL⟩ := countLadder_frame i (s.setHost { s.host with followOns := rest })
    refine ⟨i, _, (grantForeground_of_followOn d hf).trans (congrArg (issueOn d i) hL), ?_, ?_⟩
    · intro f rest' hf'
      obtain ⟨rfl, rfl⟩ := List.cons.inj (hf.symm.trans hf')
      exact ⟨rfl, rfl, rfl⟩
    · intro _ _ _ hnil
      exact absurd (hf.symm.trans hnil) (List.cons_ne_nil _ _)
  · obtain ⟨H, hH, hrest⟩ := issueRequest_frame d tag r (s.setHost { s.host with requests := rest })
    refine ⟨_, H, (grantForeground_of_request d hf hq hr).trans hH, ?_, ?_⟩
    · intro _ _ hcons
      exact absurd (hf.symm.trans hcons).symm (List.cons_ne_nil _ _)
    · intro tag' rest' r' _ hq' hr'
      obtain ⟨rfl, rfl⟩ := List.cons.inj (hq.symm.trans hq')
      obtain rfl := Option.some.inj (hr.symm.trans hr')
      exact ⟨hrest, rfl⟩

/-! ### The background's request -/

/-- The copy engine's request is granted first (R75). -/
theorem grantBackground_of_copy (d : PortTag) (h : s.copy.request = .presented i) :
    grantBackground d s =
      issueOn d i (s.setCopy { s.copy with request := .atMemory, retry := usedAfter s.copy.retry i }) := by
  rw [grantBackground, h]

/-- The sweep's request is granted when the copy engine presents none (R75). -/
theorem grantBackground_of_sweep (d : PortTag) (hc : ∀ c, s.copy.request ≠ .presented c)
    (h : s.sweep.request = .presented i) :
    grantBackground d s =
      issueOn d i (s.setSweep { s.sweep with request := .atMemory, retry := usedAfter s.sweep.retry i }) := by
  rw [grantBackground]; split
  next c hc' => exact absurd hc' (hc c)
  · rw [h]

/-- A presented request of the copy engine is a background request (R74). -/
theorem bgPresented_of_copy (h : s.copy.request = .presented i) : bgPresented s = true := by
  rw [bgPresented, h]; rfl

/-- A presented request of the sweep is a background request (R74). -/
theorem bgPresented_of_sweep (h : s.sweep.request = .presented i) : bgPresented s = true := by
  rw [bgPresented, h]; exact Bool.or_true _

/-- A background retry counts as used on its first issue, and no other background grant counts (R100, R118). -/
theorem usedAfter_eq {retry after : Option Retry} {read write own : Originator}
    (hown : own = .copyRetry ∨ own = .sweepRetry) (hread : read ≠ .copyRetry ∧ read ≠ .sweepRetry)
    (hwrite : write ≠ .copyRetry ∧ write ≠ .sweepRetry)
    (h : i.origin = own ∧ i.reissue = false ∧ after = retry.map (fun r => { r with used := r.used + 1 }) ∨
      (i.origin = read ∨ i.origin = write ∨ i.origin = own ∧ i.reissue = true) ∧ after = retry) :
    usedAfter retry i = after := by
  rcases h with ⟨ho, hi, rfl⟩ | ⟨ho, rfl⟩
  · exact if_pos ⟨ho ▸ hown, Bool.eq_false_iff.1 hi⟩
  · refine if_neg fun ⟨hr, hi⟩ => ?_
    rcases ho with ho | ho | ⟨-, ho⟩
    · exact (ho ▸ hr).elim hread.1 hread.2
    · exact (ho ▸ hr).elim hwrite.1 hwrite.2
    · exact hi ho

/-! ### The statement -/

/-- Settles O42. The class chosen follows from what is presented and the counter; the grant is then that class's. -/
theorem arbiterSharesGrants : Obligations.ArbiterSharesGrants := by
  refine fun s => ⟨fun h => ?_, fun d hm hd => ⟨fun hf hb hshare => ?_, fun hb hshare => ?_, fun hturn => ⟨?_, ?_⟩⟩⟩
  · refine congrArg Host.Outcome.next ?_
    rcases h with h | ⟨hf, hb⟩
    · exact arbitrate_of_no_free_tag h
    · exact arbitrate_of_nothing_presented hf hb
  · obtain ⟨i, H, granted, onFollowOn, onRequest⟩ := grantForeground_frame d hf
    refine ⟨_, i, exec_arbiterGrant_of_share hm hd hb hshare hf, ?_⟩
    rw [granted]
    refine ⟨rfl, rfl, rfl, onFollowOn, fun tag rest r hnil hq hr => ?_⟩
    obtain ⟨hrest, hi⟩ := onRequest tag rest r hnil hq hr
    exact ⟨hrest, hi.trans (by unfold requestIssue; cases r.op <;> rfl)⟩
  · intro port
    refine ⟨fun f rest hf => ?_, fun tag rest r hf hq hw hr => ?_⟩
    · have granted := exec_arbiterGrant_of_share hm hd hb hshare (fgPresented_of_followOn hf)
      rw [grantForeground_of_followOn d hf] at granted
      refine ⟨fun h => ?_, fun k t e l ho hi hl => ?_⟩
      · rw [granted, countLadder_of_other h]; rfl
      · rw [granted, countLadder_of_retry ho hi (by exact hl)]; rfl
    · have granted (hfree : r.op = .read ∨ s.locks.lockedAt (resolve s.geom s.remap true r.line) = false) :
          exec .arbiterGrant s = .next (setShare (min 16 (s.port.share + 1))
            (issueRequest d tag r (s.setHost { s.host with requests := rest }))) := by
        rw [exec_arbiterGrant_of_share hm hd hb hshare (fgPresented_of_request hf hq hw hr hfree),
          grantForeground_of_request d hf hq hr]
      refine ⟨?_, ?_⟩
      · rintro ho p rfl
        rw [granted (.inl ho), issueRequest_of_read d tag ho]; rfl
      · rintro data m p ho hp hl
        have hfree : s.locks.lockedAt (resolve s.geom s.remap true r.line) = false := hp ▸ hl
        rw [granted (.inr hfree)]
        obtain ⟨p, second⟩ := p
        cases second with
        | none => rw [issueRequest_of_write d tag ho (by exact hp.symm), ← hf]; rfl
        | some q =>
          rw [issueRequest_of_dualWrite d tag ho (by exact hp.symm), pushFollowOn]
          have alone : (writeIssued d tag r ⟨p, some q⟩ data m
              (s.setHost { s.host with requests := rest })).host.followOns = [] := hf
          rw [alone]; rfl
  · intro i retry hc hretry
    have used := usedAfter_eq (.inl rfl) (by decide) (by decide) hretry
    rw [exec_arbiterGrant_of_background hm hd (bgPresented_of_copy hc) hturn, grantBackground_of_copy d hc, used]
    rfl
  · intro i retry hn hw hretry
    have used := usedAfter_eq (.inr rfl) (by decide) (by decide) hretry
    rw [exec_arbiterGrant_of_background hm hd (bgPresented_of_sweep hw) hturn, grantBackground_of_sweep d hn hw, used]
    rfl

end Sys2Proof.Machine

namespace Sys2Proof.Machine

/-! ## A first issue that ends in ERROR

The error is offered as an event and the request waits again with its originator. -/

variable {s : State} {d : PortTag} {i : Issue}

/-! ### The timeout -/

/-- A timeout of an IN USE tag quarantines it with its event, and ends its request in ERROR (R71). -/
theorem portTimeout_of_inUse (ht : s.port.tags[d] = .inUse i) :
    portTimeout d s = settle (requestError i true
      (offer (lineEvent .tagQuarantined .port i.req.line (some d.val)) (setTag d .quarantined s))) := by
  have ht : s.port.tags[d] = .inUse i := ht
  rw [portTimeout, ht]

/-- A timeout that leaves nothing due does no more than end its request in ERROR (R71). -/
theorem exec_timeout_of_settled {u : State} (ht : s.port.tags[d] = .inUse i)
    (hu : requestError i true
      (offer (lineEvent .tagQuarantined .port i.req.line (some d.val)) (setTag d .quarantined s)) = u)
    (hs : settled u = true) : exec (.tagTimeout d) s = .next u :=
  congrArg Host.Outcome.next (by rw [portTimeout_of_inUse ht, hu, settle_of_settled hs])

/-- A timeout of a tag not IN USE changes nothing (notes/assumptions/3.md). -/
theorem portTimeout_of_not_inUse (ht : ∀ i, s.port.tags[d] ≠ .inUse i) : portTimeout d s = s := by
  unfold portTimeout; split
  next i hi => exact absurd hi (ht i)
  · rfl
  · rfl

/-! ### The reissue -/

/-- A first issue that ends in ERROR offers MEMORY_ERROR, and is reissued (R72). -/
theorem requestError_of_first (h : i.reissue = false) (late : Bool) (s : State) :
    requestError i late s =
      reissue i (offer (lineEvent .memoryError .port i.req.line (some (if late then 2 else 1))) s) := by
  cases late <;> simp [requestError, h, errorValue]

/-- A first issue of a host write waits again as itself, or as an orphan write after a host-path reset (R50, R72). -/
theorem reissue_of_hostWrite {tag : HostTag} {half : Half} {e : Nat} (ho : i.origin = .hostWrite tag half e)
    (s : State) :
    reissue i s = pushFollowOn (if e = s.host.era then asReissue i else asReissue (orphanOf i)) s := by
  simp only [reissue, ho]; split <;> rfl

/-! ### The statement -/

/-- Settles O47. A first issue's error, by a response or by a timeout, is its reissue, which waits by its
originator. -/
theorem firstErrorsAreReissued : Obligations.FirstErrorsAreReissued := by
  refine fun s d x c => ⟨fun ht => ⟨?_, ?_⟩, fun ht => ⟨?_, ?_⟩, fun i ht hi => ?_⟩
  · exact congrArg Host.Outcome.next (by rw [portResponse, show s.port.tags[d] = .free from ht])
  · exact congrArg Host.Outcome.next (portTimeout_of_not_inUse fun i => by rw [ht]; nofun)
  · refine congrArg Host.Outcome.next ?_
    rw [portResponse, show s.port.tags[d] = .quarantined from ht]; rfl
  · exact congrArg Host.Outcome.next (portTimeout_of_not_inUse fun i => by rw [ht]; nofun)
  · intro again queues waits
    have waits_eq (P : Port) (E : Events) : reissue i (s.told P E) = waits (s.told P E) := by
      cases ho : i.origin with
      | hostWrite tag half e => rw [reissue_of_hostWrite ho]; simp only [waits, ho]; rfl
      | _ => simp only [waits, reissue, ho]; rfl
    refine ⟨fun hc u hu hs => exec_response_of_settled ht ?_ hs, fun u hu hs => exec_timeout_of_settled ht ?_ hs⟩
    · rw [completeIssue_of_error x hc, requestError_of_first hi]
      exact (waits_eq _ _).trans hu.symm
    · rw [requestError_of_first hi]
      exact (waits_eq _ _).trans hu.symm

end Sys2Proof.Machine

namespace Sys2Proof.Machine

/-! ## Decay, and the victim of a replacement

Both are facts about the Health Table alone. The victim is the first of the entries with failed count 0 in the order
of R81, `HealthEntry.Before`; the fold of `victim` keeps that first entry of the places it has passed. -/

variable {pass : BitVec 16} {h : Health}

/-! ### Decay -/

theorem decayEntry_eq_none {e : HealthEntry} (p : Params) (hx : e.fixed < 2) (hf : e.failed = 0) :
    decayEntry p e = none :=
  if_pos ⟨Nat.div_eq_of_lt hx, hf⟩

theorem decayEntry_eq_some {e : HealthEntry} (p : Params) (hk : 2 ≤ e.fixed ∨ 0 < e.failed) :
    decayEntry p e = some { e with
      fixed := e.fixed / 2
      reported := e.reported && atThreshold p { e with fixed := e.fixed / 2 } } := by
  have hn : ¬ (e.fixed / 2 = 0 ∧ e.failed = 0) := by omega
  simp only [decayEntry, if_neg hn]
  cases atThreshold p { e with fixed := e.fixed / 2 } <;> simp

/-- Settles O50: a place of the decayed table is its entry decayed. -/
theorem decayHalvesFixedCounts : Obligations.DecayHalvesFixedCounts := by
  intro p h i
  have place : (decay p h)[i] = h[i].bind (decayEntry p) := tableMap_getElem _ h i
  refine ⟨fun hn => ?_, fun e he hx hf => ?_, fun e he hk => ?_⟩
  · rw [place, hn]; rfl
  · rw [place, he]; exact decayEntry_eq_none p hx hf
  · rw [place, he]; exact decayEntry_eq_some p hk

/-! ### The order of R81 -/

/-- The entry `e` at place `i` is taken as a victim before the entry `f` at place `j` (R81). -/
def HealthEntry.Before (pass : BitVec 16) (i : Fin 64) (e : HealthEntry) (j : Fin 64) (f : HealthEntry) : Prop :=
  e.fixed < f.fixed ∨ e.fixed = f.fixed ∧ ((pass - f.lastSeen).toNat < (pass - e.lastSeen).toNat ∨
    (pass - f.lastSeen).toNat = (pass - e.lastSeen).toNat ∧ i ≤ j)

theorem HealthEntry.Before.refl (i : Fin 64) (e : HealthEntry) : e.Before pass i i e :=
  .inr ⟨rfl, .inr ⟨rfl, le_refl i⟩⟩

theorem HealthEntry.Before.trans {i j k : Fin 64} {e f g : HealthEntry} (a : e.Before pass i j f)
    (b : f.Before pass j k g) : e.Before pass i k g := by
  unfold HealthEntry.Before at *; omega

theorem HealthEntry.before_of_goesFirst {e f : HealthEntry} (i j : Fin 64) (hg : goesFirst pass e f = true) :
    e.Before pass i j f := by
  simp only [goesFirst, Bool.or_eq_true, Bool.and_eq_true, decide_eq_true_eq, beq_iff_eq] at hg
  exact hg.imp_right fun ⟨hx, ha⟩ => ⟨hx, .inl ha⟩

/-- An entry that does not go first of the two stands after one at a lower place. -/
theorem HealthEntry.before_of_not_goesFirst {i j : Fin 64} {e f : HealthEntry} (hij : i ≤ j)
    (hg : goesFirst pass f e = false) : e.Before pass i j f := by
  simp only [goesFirst, Bool.or_eq_false_iff, Bool.and_eq_false_iff, decide_eq_false_iff_not, beq_eq_false_iff_ne] at hg
  unfold HealthEntry.Before; omega

/-! ### The best of the places passed -/

/-- `best` is the first of the entries with failed count 0 at the places of `l`, or there is none (R81). -/
def BestOf (pass : BitVec 16) (h : Health) (l : List (Fin 64)) : Option (Fin 64 × HealthEntry) → Prop
  | none => ∀ j ∈ l, ∀ f, h[j] = some f → f.failed ≠ 0
  | some (i, e) => i ∈ l ∧ h[i] = some e ∧ e.failed = 0 ∧
      ∀ j ∈ l, ∀ f, h[j] = some f → f.failed = 0 → e.Before pass i j f

/-- A place that holds no entry with failed count 0 changes nothing. -/
theorem BestOf.skip {l : List (Fin 64)} {best : Option (Fin 64 × HealthEntry)} {k : Fin 64}
    (hb : BestOf pass h l best) (hk : ∀ f, h[k] = some f → f.failed ≠ 0) : BestOf pass h (l ++ [k]) best := by
  have old {j : Fin 64} {f : HealthEntry} (hj : j ∈ l ++ [k]) (hf : h[j] = some f) (h0 : f.failed = 0) : j ∈ l := by
    rcases List.mem_append.1 hj with hj | hj
    · exact hj
    · exact absurd h0 (hk f (List.mem_singleton.1 hj ▸ hf))
  cases best with
  | none => exact fun j hj f hf h0 => hb j (old hj hf h0) f hf h0
  | some x =>
    obtain ⟨hi, he, h0, hx⟩ := hb
    exact ⟨List.mem_append_left _ hi, he, h0, fun j hj f hf hf0 => hx j (old hj hf hf0) f hf hf0⟩

/-- What stands before the entries passed, and before the entry of one more place, stands before them all. -/
theorem HealthEntry.before_append {l : List (Fin 64)} {i k : Fin 64} {b e : HealthEntry} (hk : h[k] = some e)
    (hold : ∀ j ∈ l, ∀ f, h[j] = some f → f.failed = 0 → b.Before pass i j f) (hnew : b.Before pass i k e) :
    ∀ j ∈ l ++ [k], ∀ f, h[j] = some f → f.failed = 0 → b.Before pass i j f := by
  intro j hj f hf h0
  rcases List.mem_append.1 hj with hj | hj
  · exact hold j hj f hf h0
  · obtain rfl := List.mem_singleton.1 hj
    obtain rfl := Option.some.inj (hk.symm.trans hf)
    exact hnew

/-- A place above those passed: the better of its entry and the best so far is the best of them all. -/
theorem BestOf.step {l : List (Fin 64)} {best : Option (Fin 64 × HealthEntry)} {k : Fin 64}
    (hb : BestOf pass h l best) (hl : ∀ j ∈ l, j < k) : BestOf pass h (l ++ [k]) (betterVictim pass h best k) := by
  cases hk : h[k] with
  | none =>
    rw [show betterVictim pass h best k = best by simp only [betterVictim, hk]]
    exact hb.skip (by simp [hk])
  | some e =>
    by_cases h0 : e.failed = 0
    · cases best with
      | none =>
        rw [show betterVictim pass h none k = some (k, e) by simp only [betterVictim, hk, if_pos h0]]
        exact ⟨by simp, hk, h0,
          HealthEntry.before_append hk (fun j hj f hf hf0 => absurd hf0 (hb j hj f hf)) (.refl k e)⟩
      | some x =>
        obtain ⟨i, b⟩ := x
        obtain ⟨hi, hbe, hb0, hx⟩ := hb
        rw [show betterVictim pass h (some (i, b)) k = if goesFirst pass e b then some (k, e) else some (i, b) by
          simp only [betterVictim, hk, if_pos h0]]
        cases hg : goesFirst pass e b with
        | true =>
          refine ⟨by simp, hk, h0, HealthEntry.before_append hk (fun j hj f hf hf0 => ?_) (.refl k e)⟩
          exact (HealthEntry.before_of_goesFirst k i hg).trans (hx j hj f hf hf0)
        | false =>
          exact ⟨List.mem_append_left _ hi, hbe, hb0,
            HealthEntry.before_append hk hx (HealthEntry.before_of_not_goesFirst (hl i hi).le hg)⟩
    · rw [show betterVictim pass h best k = best by simp only [betterVictim, hk, if_neg h0]]
      exact hb.skip fun f hf => by rw [← Option.some.inj (hk.symm.trans hf)]; exact h0

/-- The fold over rising places ends in the best of them. -/
theorem bestOf_foldl (l : List (Fin 64)) (hl : l.Pairwise (· < ·)) :
    BestOf pass h l (l.foldl (betterVictim pass h) none) := by
  induction l using List.reverseRecOn with
  | nil => simp [BestOf]
  | append_singleton l k ih =>
    obtain ⟨hl, -, hk⟩ := List.pairwise_append.1 hl
    rw [List.foldl_append]
    exact (ih hl).step fun j hj => hk j hj k (List.mem_singleton_self k)

theorem bestOf_victim (pass : BitVec 16) (h : Health) : ∃ best, victim pass h = best.map Prod.fst ∧
    BestOf pass h (List.finRange 64) best :=
  ⟨_, rfl, bestOf_foldl _ (List.pairwise_lt_finRange 64)⟩

/-! ### The victim -/

/-- A victim is an entry with failed count 0 that stands before every other one (R81). -/
theorem victim_eq_some {i : Fin 64} (hv : victim pass h = some i) : ∃ e, h[i] = some e ∧ e.failed = 0 ∧
    ∀ (j : Fin 64) (f : HealthEntry), h[j] = some f → f.failed = 0 → e.Before pass i j f := by
  obtain ⟨best, hb, hbest⟩ := bestOf_victim pass h
  cases best with
  | none => rw [hb] at hv; cases hv
  | some x =>
    obtain ⟨i', e⟩ := x
    obtain rfl : i' = i := Option.some.inj (hb.symm.trans hv)
    obtain ⟨-, he, h0, hx⟩ := hbest
    exact ⟨e, he, h0, fun j f => hx j (List.mem_finRange j) f⟩

/-- There is no victim exactly when every entry has failed reads (R82). -/
theorem victim_eq_none_iff : victim pass h = none ↔ ∀ (j : Fin 64) (f : HealthEntry), h[j] = some f → f.failed ≠ 0 := by
  constructor
  · intro hv j f
    obtain ⟨best, hb, hbest⟩ := bestOf_victim pass h
    obtain rfl : best = none := Option.map_eq_none_iff.1 (hb.symm.trans hv)
    exact hbest j (List.mem_finRange j) f
  · intro hall
    by_contra hv
    obtain ⟨i, hi⟩ := Option.ne_none_iff_exists'.1 hv
    obtain ⟨e, he, h0, -⟩ := victim_eq_some hi
    exact hall i e he h0

end Sys2Proof.Machine

namespace Sys2Proof.Machine

/-! ## A health increment

Where it lands (`incrementPlace`), what the threshold check then does, and what an automatic request for retirement
comes to by the checks of R90. -/

variable {s : State} {n : Nat} {i : Fin 64} {e : HealthEntry} {src : Source}

/-! ### Admission to the Retirement Queue -/

/-- A span stands in the Retirement Queue or in an entry of the Remap Table (R90). -/
def Placed (s : State) (n : Nat) : Prop :=
  (∃ q ∈ s.retire, q.span = n) ∨ ∃ k : Fin 128, ∃ b ∈ s.remap[k], b.span = n

theorem not_placed_iff : ¬ Placed s n ↔
    (∀ q ∈ s.retire, q.span ≠ n) ∧ ∀ k : Fin 128, ∀ b ∈ s.remap[k], b.span ≠ n := by
  simp only [Placed, not_or, not_exists, not_and, ne_eq]

theorem isQueued_iff {l : List Queued} : isQueued l n = true ↔ ∃ q ∈ l, q.span = n := by
  simp [isQueued, List.any_eq_true]

theorem not_isQueued {l : List Queued} (h : ∀ q ∈ l, q.span ≠ n) : ¬ isQueued l n = true := fun hc =>
  let ⟨q, hq, hn⟩ := isQueued_iff.1 hc
  h q hq hn

theorem placed_iff : Placed s n ↔ (isQueued s.retire n || (bindingOf s.remap n).isSome) = true := by
  rw [← not_iff_not, not_placed_iff, ← bindingOf_eq_none_iff]
  simp [isQueued]

/-- The range check comes first (R90). -/
theorem admission_of_unusable (h : s.geom.usable n = false) : admission s n = .range := by
  simp [admission, h]

/-- The duplicate check is next (R90). -/
theorem admission_of_placed (hu : s.geom.usable n = true) (h : Placed s n) : admission s n = .duplicate := by
  simp only [admission, hu, placed_iff.1 h]; rfl

/-- A new span is taken while there is room (R90). -/
theorem admission_of_room (hu : s.geom.usable n = true) (h : ¬ Placed s n) (hr : s.retire.length < 8) :
    admission s n = .taken := by
  simp only [admission, hu, Bool.eq_false_iff.2 (mt placed_iff.2 h), if_pos hr]; rfl

theorem admission_of_full (hu : s.geom.usable n = true) (h : ¬ Placed s n) (hr : 8 ≤ s.retire.length) :
    admission s n = .room := by
  simp only [admission, hu, Bool.eq_false_iff.2 (mt placed_iff.2 h), if_neg (Nat.not_lt.2 hr)]; rfl

/-- A span taken stands at the tail, and its event gives its position (R90, R91). -/
theorem takeSpan_eq (n : Nat) (o : RetireOrigin) (src : Source) (s : State) : takeSpan n o src s =
    { offer (spanEvent .retireQueued src n none (some (s.retire.length + 1))) s with
      retire := s.retire ++ [⟨n, o⟩] } := by
  simp only [takeSpan, enqueueSpan, State.setRetire_retire, List.length_append, List.length_singleton]; rfl

/-! ### An automatic request -/

theorem autoRequest_of_declined (src : Source) (h : s.mode ≠ .online ∨ s.geom.usable n = false ∨ Placed s n) :
    autoRequest n src s = s := by
  by_cases hm : s.mode = .online
  · have hc : admission s n = .range ∨ admission s n = .duplicate := by
      cases hu : s.geom.usable n with
      | false => exact .inl (admission_of_unusable hu)
      | true => exact .inr (admission_of_placed hu (by simpa [hm, hu] using h))
    rw [autoRequest, if_pos hm]
    rcases hc with hc | hc <;> rw [hc]
  · exact if_neg hm

theorem autoRequest_of_room (src : Source) (hm : s.mode = .online) (hu : s.geom.usable n = true) (h : ¬ Placed s n)
    (hr : s.retire.length < 8) : autoRequest n src s = takeSpan n .auto src s := by
  rw [autoRequest, if_pos hm, admission_of_room hu h hr]

theorem autoRequest_of_full (src : Source) (hm : s.mode = .online) (hu : s.geom.usable n = true) (h : ¬ Placed s n)
    (hr : 8 ≤ s.retire.length) :
    autoRequest n src s = offer (spanEvent .retireDeferred src n none (some 8)) s := by
  rw [autoRequest, if_pos hm, admission_of_full hu h hr]

/-! ### The threshold check -/

theorem thresholdCode_eq (p : Params) (e : HealthEntry) : thresholdCode p e =
    (if p.fixedThreshold ≤ e.fixed then 1 else 0) + (if p.failedThreshold ≤ e.failed then 2 else 0) := by
  unfold thresholdCode fixedAt failedAt
  by_cases hx : p.fixedThreshold ≤ e.fixed <;> by_cases hf : p.failedThreshold ≤ e.failed <;> simp [hx, hf]

/-- An entry is at threshold exactly when its code is not 0. -/
theorem atThreshold_eq (p : Params) (e : HealthEntry) : atThreshold p e = decide (0 < thresholdCode p e) := by
  unfold atThreshold thresholdCode
  cases fixedAt p e <;> cases failedAt p e <;> rfl

theorem thresholdCheck_of_below (hc : thresholdCode s.params e = 0) : thresholdCheck i e src s = s := by
  simp [thresholdCheck, atThreshold_eq, hc]

theorem thresholdCheck_of_spare (hc : 0 < thresholdCode s.params e) (hs : e.spare = true) : thresholdCheck i e src s =
    reportOnce i e (spanEvent .spareDegraded src e.span (some (e.span - s.geom.spareBase))
      (some (thresholdCode s.params e))) s := by
  simp [thresholdCheck, atThreshold_eq, hc, hs]

theorem thresholdCheck_of_report (hc : 0 < thresholdCode s.params e) (hs : e.spare = false)
    (ha : s.params.autoRetire = false) : thresholdCheck i e src s =
    reportOnce i e (spanEvent .threshold src e.span none (some (thresholdCode s.params e))) s := by
  simp [thresholdCheck, atThreshold_eq, hc, hs, ha]

theorem thresholdCheck_of_auto (hc : 0 < thresholdCode s.params e) (hs : e.spare = false)
    (ha : s.params.autoRetire = true) : thresholdCheck i e src s = autoRequest e.span src s := by
  simp [thresholdCheck, atThreshold_eq, hc, hs, ha]

/-- An entry just written reports once, and is written again as reported (R84, R85). -/
theorem reportOnce_of_set (i : Fin 64) (e : HealthEntry) (ev : Event) (s : State) :
    reportOnce i e ev (s.setHealth (s.health.set i (some e))) =
      if e.reported then s.setHealth (s.health.set i (some e))
      else { offer ev s with health := s.health.set i (some { e with reported := true }) } := by
  unfold reportOnce
  rw [State.setHealth_health, Vector.set_set]; rfl

/-! ### Where an increment lands -/

theorem incrementPlace_of_own (hs : HealthSound s.health) (he : s.health[i] = some e) (hn : e.span = n) :
    incrementPlace s n = some (i, e) := by
  have hf : findHealth s.health n = some i :=
    findHealth_eq (.inr ⟨i, rfl, ⟨e, he, hn⟩, fun k g hg hk => hs.unique k i g hg e he (hk.trans hn.symm)⟩)
  have he : s.health[i] = some e := he
  simp only [incrementPlace, healthOf, hf, Option.bind_some, he, Option.map_some]

theorem healthOf_eq_none (ho : ∀ j : Fin 64, ∀ f ∈ s.health[j], f.span ≠ n) : healthOf s.health n = none := by
  rw [healthOf, findHealth_eq (.inl ⟨rfl, ho⟩)]; rfl

theorem incrementPlace_of_empty (ho : ∀ j : Fin 64, ∀ f ∈ s.health[j], f.span ≠ n) (he : s.health[i] = none)
    (hl : ∀ j : Fin 64, j < i → s.health[j] ≠ none) : incrementPlace s n = some (i, newHealthEntry s n) := by
  have hi : lowestIndex Option.isNone s.health = some i :=
    (lowestIndex_eq_some_iff _ _ _).2 ⟨by rw [he]; rfl, fun j hj =>
      Bool.eq_false_iff.2 (mt Option.isNone_iff_eq_none.1 (hl j hj))⟩
  simp only [incrementPlace, healthOf_eq_none ho, hi]

theorem incrementPlace_of_full (ho : ∀ j : Fin 64, ∀ f ∈ s.health[j], f.span ≠ n)
    (hl : ∀ j : Fin 64, s.health[j] ≠ none) : incrementPlace s n =
      (victim s.sweep.pass s.health).map fun i => (i, newHealthEntry s n) := by
  have hi : lowestIndex Option.isNone s.health = none :=
    (lowestIndex_eq_none_iff _ _).2 fun j => Bool.eq_false_iff.2 (mt Option.isNone_iff_eq_none.1 (hl j))
  simp only [incrementPlace, healthOf_eq_none ho, hi]

/-- An increment that lands is counted, and the thresholds are then checked (R79, R83). -/
theorem healthIncrement_of_place (failed : Bool) (src : Source) (hp : incrementPlace s n = some (i, e)) :
    healthIncrement n failed src s = thresholdCheck i (countIn s.sweep.pass failed e) src
      (s.setHealth (s.health.set i (some (countIn s.sweep.pass failed e)))) := by
  simp only [healthIncrement, hp]

theorem healthIncrement_of_dropped (failed : Bool) (src : Source) (hp : incrementPlace s n = none) :
    healthIncrement n failed src s = dropIncrement n failed src s := by
  simp only [healthIncrement, hp]

/-! ### The statement -/

/-- Settles O49. The place gives the entry counted; the threshold check goes by that entry's code, its kind and the
auto-retire parameter. The victim is the best of the fold. -/
theorem incrementsAreCounted : Obligations.IncrementsAreCounted := by
  refine ⟨fun s n failed src i e hplace e' he' counted hc => ?_, fun pass h i hv => victim_eq_some hv,
    fun pass h ⟨i, e, he, h0⟩ => ?_, fun s n failed src hfull => ?_⟩
  · have place : incrementPlace s n = some (i, e) := by
      rcases hplace with ⟨he, hn, hs⟩ | ⟨ho, ⟨he, hl⟩ | ⟨hl, hv⟩, rfl⟩
      · exact incrementPlace_of_own hs he hn
      · exact incrementPlace_of_empty ho he hl
      · rw [incrementPlace_of_full ho hl, hv]; rfl
    have he' : e' = countIn s.sweep.pass failed e := he'
    have hn : e'.span = n := by rw [he', countIn_span]; exact (incrementPlace_some place).1
    have hc : counted = s.setHealth (s.health.set i (some e')) := hc
    have run : healthIncrement n failed src s = thresholdCheck i e' src counted := by
      rw [hc, he']; exact healthIncrement_of_place failed src place
    intro code reports
    have hcode : thresholdCode counted.params e' = code := by rw [hc]; exact thresholdCode_eq s.params e'
    have hreports (ev : Event) : reportOnce i e' ev counted = reports ev := by
      simp only [reports, hc]; exact reportOnce_of_set i e' ev s
    rw [run]
    refine ⟨fun h0 => ?_, fun h0 hs => ?_, fun h0 hs ha => ?_, fun h0 hs ha => ?_⟩
    · exact thresholdCheck_of_below (hcode.trans h0)
    · rw [thresholdCheck_of_spare (by rwa [hcode]) hs, hreports, hcode, hn, hc]; rfl
    · rw [thresholdCheck_of_report (by rwa [hcode]) hs (by rw [hc]; exact ha), hreports, hcode, hn]
    · rw [thresholdCheck_of_auto (by rwa [hcode]) hs (by rw [hc]; exact ha), hn]
      have hplaced : Placed counted n ↔ Placed s n := by rw [hc]; rfl
      refine ⟨fun hd => ?_, fun hm hu hq hb => ?_⟩
      · exact autoRequest_of_declined src (by rw [hplaced, hc]; exact hd)
      · have hnew : ¬ Placed counted n := by rw [hplaced]; exact not_placed_iff.2 ⟨hq, hb⟩
        have hm : counted.mode = .online := by rw [hc]; exact hm
        have hu : counted.geom.usable n = true := by rw [hc]; exact hu
        have hr : counted.retire = s.retire := by rw [hc]; rfl
        refine ⟨fun hl => ?_, fun hl => ?_⟩
        · rw [autoRequest_of_room src hm hu hnew (by rwa [hr]), takeSpan_eq, hr]
        · exact autoRequest_of_full src hm hu hnew (by rwa [hr])
  · exact Option.ne_none_iff_exists'.1 fun hn => victim_eq_none_iff.1 hn i e he h0
  · have others : ∀ j : Fin 64, ∀ f ∈ s.health[j], f.span ≠ n := fun j f hf => by
      obtain ⟨g, hg, hn, -⟩ := hfull j
      rwa [Option.some.inj (hf.symm.trans hg)]
    have full : ∀ j : Fin 64, s.health[j] ≠ none := fun j hn => by
      obtain ⟨g, hg, -⟩ := hfull j
      cases hn.symm.trans hg
    have no_victim : victim s.sweep.pass s.health = none := victim_eq_none_iff.2 fun j f hf => by
      obtain ⟨g, hg, -, h0⟩ := hfull j
      rw [Option.some.inj (hf.symm.trans hg)]; exact h0.ne'
    rw [healthIncrement_of_dropped failed src (by rw [incrementPlace_of_full others full, no_victim]; rfl)]
    rfl

end Sys2Proof.Machine

namespace Sys2Proof.Machine

/-! ## The management link's commands for health and retirement

Each command is taken on a free link and runs its body; what the body does goes by where the span stands. -/

variable {s : State} {n : Nat}

/-! ### The commands as taken -/

theorem clearHealth_eq (hb : s.link.busy = false) (hm : s.mode ≠ .startup) :
    exec (.clearHealth []) s = .next (clearHealthBody (takeFrame s)) :=
  congrArg Host.Outcome.next (takeCommand_read _ hb hm rfl (Nat.zero_le _))

theorem clearStats_eq (hb : s.link.busy = false) (hm : s.mode ≠ .startup) :
    exec (.clearStats []) s = .next (answer .ok [] ((takeFrame s).setStats zeroStats)) :=
  congrArg Host.Outcome.next
    (takeCommand_read (fun t => answer .ok [] (t.setStats zeroStats)) hb hm rfl (Nat.zero_le _))

theorem retireSpan_eq (hn : n < 16777216) (hb : s.link.busy = false) (hm : s.mode = .online) :
    exec (.retireSpan (leBytes 3 n)) s = .next (retireSpanBody n (takeFrame s)) := by
  have h := takeCommand_taken (ps := leBytes 3 n) (a := inOnline s) (l := (leBytes 3 n).length == 3)
    (f := retireSpanBody (leNat (leBytes 3 n))) hb (by simp [inOnline, hm]) (by simp) (by simp)
  exact congrArg Host.Outcome.next (h.trans (by rw [leNat_leBytes 3 n hn]))

theorem cancelRetire_eq (hn : n < 16777216) (hb : s.link.busy = false) (hm : s.mode ≠ .startup) :
    exec (.cancelRetire (leBytes 3 n)) s = .next (cancelRetireBody n (takeFrame s)) := by
  have h := takeCommand_read (ps := leBytes 3 n) (l := (leBytes 3 n).length == 3)
    (cancelRetireBody (leNat (leBytes 3 n))) hb hm (by simp) (by simp)
  exact congrArg Host.Outcome.next (h.trans (by rw [leNat_leBytes 3 n hn]))

/-- Settles O26: each command's body sets one field and answers. -/
theorem healthAndStatsAreCleared : Obligations.HealthAndStatsAreCleared := by
  refine fun s hb hm => ⟨⟨emptyHealth, fun i => ?_, ?_⟩, ?_⟩
  · simp [emptyHealth]
  · rw [clearHealth_eq hb hm]; rfl
  · rw [clearStats_eq hb hm]; rfl

/-! ### RETIRE_SPAN -/

theorem retireSpanBody_of_beyond (h : 4194303 < n) : retireSpanBody n s = answer .badParam [] s :=
  if_neg (Nat.not_le.2 h)

theorem retireSpanBody_of_unusable (h : n ≤ 4194303) (hu : s.geom.usable n = false) :
    retireSpanBody n s = answer .badParam [] s := by
  rw [retireSpanBody, if_pos (show n ≤ Config.maxSpan from h), admission_of_unusable hu]

theorem retireSpanBody_of_placed (h : n ≤ 4194303) (hu : s.geom.usable n = true) (hp : Placed s n) :
    retireSpanBody n s = answer .duplicate [] s := by
  rw [retireSpanBody, if_pos (show n ≤ Config.maxSpan from h), admission_of_placed hu hp]

theorem retireSpanBody_of_full (h : n ≤ 4194303) (hu : s.geom.usable n = true) (hp : ¬ Placed s n)
    (hl : 8 ≤ s.retire.length) : retireSpanBody n s = answer .queueFull [] s := by
  rw [retireSpanBody, if_pos (show n ≤ Config.maxSpan from h), admission_of_full hu hp hl]

theorem retireSpanBody_of_room (h : n ≤ 4194303) (hu : s.geom.usable n = true) (hp : ¬ Placed s n)
    (hl : s.retire.length < 8) :
    retireSpanBody n s = settle (answer .ok [] (takeSpan n .command .link s)) := by
  rw [retireSpanBody, if_pos (show n ≤ Config.maxSpan from h), admission_of_room hu hp hl]

/-- Settles O28, by the checks of R90 in their order. -/
theorem retireSpanIsDecided : Obligations.RetireSpanIsDecided := by
  intro s n hb hm hn
  rw [retireSpan_eq hn hb hm]
  refine ⟨fun hr => ?_, fun hr hu => ⟨fun hp => ?_, fun hq hno => ⟨fun hl => ?_, fun hl u hu' hset => ?_⟩⟩⟩
  · rcases Nat.lt_or_ge 4194303 n with hlt | hle
    · rw [retireSpanBody_of_beyond hlt]; rfl
    · rw [retireSpanBody_of_unusable (s := takeFrame s) hle (hr.resolve_left (Nat.not_lt.2 hle))]; rfl
  · rw [retireSpanBody_of_placed (s := takeFrame s) hr hu hp]; rfl
  · rw [retireSpanBody_of_full (s := takeFrame s) hr hu (not_placed_iff.2 ⟨hq, hno⟩) hl]; rfl
  · have taken : answer .ok [] (takeSpan n .command .link (takeFrame s)) = u := by rw [takeSpan_eq, hu']; rfl
    rw [retireSpanBody_of_room (s := takeFrame s) hr hu (not_placed_iff.2 ⟨hq, hno⟩) hl, taken,
      settle_of_settled hset]

/-! ### CANCEL_RETIRE -/

theorem cancelRetireBody_of_beyond (h : 4194303 < n) : cancelRetireBody n s = answer .badParam [] s :=
  if_neg (Nat.not_le.2 h)

theorem cancelRetireBody_of_queued (h : n ≤ 4194303) (hq : ∃ q ∈ s.retire, q.span = n) :
    cancelRetireBody n s = answer .ok [] (cancelQueued n s) := by
  rw [cancelRetireBody, if_pos (show n ≤ Config.maxSpan from h), if_pos (isQueued_iff.2 hq)]

section

variable {b : Binding} (h : n ≤ 4194303) (hq : ∀ q ∈ s.retire, q.span ≠ n)

include h hq

theorem cancelRetireBody_of_unbound (hb : bindingOf s.remap n = none) :
    cancelRetireBody n s = answer .notFound [] s := by
  rw [cancelRetireBody, if_pos (show n ≤ Config.maxSpan from h), if_neg (not_isQueued hq), hb]

theorem cancelRetireBody_of_active (hb : bindingOf s.remap n = some b) (hs : b.stage = .active) :
    cancelRetireBody n s = answer .refusedState [] s := by
  rw [cancelRetireBody, if_pos (show n ≤ Config.maxSpan from h), if_neg (not_isQueued hq), hb]
  simp only [hs]

theorem cancelRetireBody_of_committing (hb : bindingOf s.remap n = some b) (hs : b.stage = .committing) :
    cancelRetireBody n s = answer .tooLate [] s := by
  rw [cancelRetireBody, if_pos (show n ≤ Config.maxSpan from h), if_neg (not_isQueued hq), hb]
  simp only [hs]

theorem cancelRetireBody_of_aborting (hb : bindingOf s.remap n = some b) (hs : b.stage = .aborting) :
    cancelRetireBody n s = answer .ok [] s := by
  rw [cancelRetireBody, if_pos (show n ≤ Config.maxSpan from h), if_neg (not_isQueued hq), hb]
  simp only [hs]

theorem cancelRetireBody_of_copying (hb : bindingOf s.remap n = some b) (hs : b.stage = .copying) :
    cancelRetireBody n s = settle (answer .ok [] (beginAbort .command s)) := by
  rw [cancelRetireBody, if_pos (show n ≤ Config.maxSpan from h), if_neg (not_isQueued hq), hb]
  simp only [hs]

end

/-- An abort begun, with the entry under copy put in ABORTING (R19, R108). -/
theorem State.aborted_eq {j : CopyJob} {b : Binding} (cause : AbortCause) (inFlight : Bool) (hj : s.copy.job = some j)
    (hb : s.remap[j.entry] = some b) (hs : b.stage = .copying) : s.aborted cause inFlight =
      { s with
        remap := s.remap.set j.entry (some { b with stage := .aborting })
        copy := s.copy.abort cause inFlight } := by
  rw [State.aborted, abortEntry_eq hj hb hs]; rfl

/-- CANCEL asked for and the command answered, in either order. -/
theorem answer_sendCancel (c : RespCode) (p : List Byte) (s : State) :
    answer c p (sendCancel s) = sendCancel (s.setLink (replied c p)) := by
  have hk : recordSkipped (s.setLink (replied c p)) = recordSkipped s := rfl
  unfold sendCancel
  rw [State.setLink_copy]
  cases s.copy.job with
  | none => rfl
  | some j =>
    simp only [hk]
    cases recordSkipped s <;> rfl

/-- An abort that begins while the copy waits for a quiet line, and its command answered: COPY off its line, the link
answered, and CANCEL to be sent (R108, R109). -/
theorem answer_beginAbort_of_waiting (c : AbortCause) (hst : s.copy.state ≠ .beginning)
    (hr : s.copy.request = .absent) : answer .ok [] (beginAbort c s) = sendCancel ((removeHolder .copy
      ((s.aborted c false).setCopy (s.copy.abort c false).stepOver)).setLink (replied .ok [])) := by
  rw [beginAbort_of_waiting c hst hr, stepEnded_eq, answer_sendCancel, removeHolder_setCopy]; rfl

/-- Settles O29, by where the span stands. A copy with a step in flight goes on from there; one that waits for a quiet
line has its step ended, by whether the journal takes records. -/
theorem cancelRetireByPlace : Obligations.CancelRetireByPlace := by
  intro s n hb hm hn
  rw [cancelRetire_eq hn hb hm]
  refine ⟨fun hr => ?_, fun hr hq => ?_, fun hr hq => ⟨fun hno => ?_, fun i b hi hbn once => ?_⟩⟩
  · rw [cancelRetireBody_of_beyond hr]; rfl
  · rw [cancelRetireBody_of_queued (s := takeFrame s) hr hq]; rfl
  · rw [cancelRetireBody_of_unbound (s := takeFrame s) hr hq (bindingOf_eq_none_iff.2 hno)]; rfl
  · have bound : bindingOf (takeFrame s).remap n = some b :=
      bindingOf_eq_some hi hbn fun j c hc hcn => once.entries j i c hc b hi (.inl (hcn.trans hbn.symm))
    refine ⟨fun hs => ?_, fun hs => ?_, fun hs => ?_, fun hs hf u hu hset => ?_, fun hs hst hreq hj left hl => ?_⟩
    · rw [cancelRetireBody_of_active (s := takeFrame s) hr hq bound hs]; rfl
    · rw [cancelRetireBody_of_committing (s := takeFrame s) hr hq bound hs]; rfl
    · rw [cancelRetireBody_of_aborting (s := takeFrame s) hr hq bound hs]; rfl
    · obtain ⟨j, hj, rfl⟩ : ∃ j, s.copy.job = some j ∧ j.entry = i :=
        Option.map_eq_some_iff.1 (once.oneCopy i b hi (by simp [hs])).2
      have aborted : answer .ok [] (beginAbort .command (takeFrame s)) = u := by
        rw [beginAbort_of_inFlight (s := takeFrame s) .command hf.symm,
          State.aborted_eq (s := takeFrame s) _ _ hj hi hs, hu]
        rfl
      rw [cancelRetireBody_of_copying (s := takeFrame s) hr hq bound hs, aborted, settle_of_settled hset]
    · have hlj : left.copy.job = some ⟨i, n, b.slot⟩ := by rw [hl, removeHolder_copy]; exact hj
      have hlJ : left.journal = s.journal := by rw [hl, removeHolder_journal]
      have ended : answer .ok [] (beginAbort .command (takeFrame s)) = sendCancel (left.setLink (replied .ok [])) := by
        rw [answer_beginAbort_of_waiting (s := takeFrame s) .command (by show s.copy.state ≠ _; rw [hst]; simp) hreq,
          State.aborted_eq (s := takeFrame s) _ _ hj hi hs, hl, ← removeHolder_setLink, ← removeHolder_setLink,
          CopyCtx.stepOver, CopyCtx.abort, ← hreq]
        rfl
      rw [cancelRetireBody_of_copying (s := takeFrame s) hr hq bound hs, ended]
      refine ⟨fun hJ u hu hset => congrArg Host.Outcome.next ?_, fun hJ u hu hset => congrArg Host.Outcome.next ?_⟩
      · exact settle_sendCancel_of_taken (t := left.setLink (replied .ok [])) hlj (hlJ ▸ hJ)
          (by rw [hu, ← hlJ]; rfl) hset
      · exact settle_sendCancel_of_skipped (t := left.setLink (replied .ok [])) hlj (hlJ ▸ hJ) hu hset

end Sys2Proof.Machine

namespace Sys2Proof.Machine

/-! ## A line taken, and the start of a copy

A copy starts by sending its BEGIN record; when that is skipped it takes line 0 at once, as it later takes each next
line. What follows of a line taken is its READ, by whether the line is quiet. -/

variable {s t u : State} {j : CopyJob}

/-! ### A line taken -/

/-- The copy in LINE READ at the cursor line of its span, with COPY on that line (R98). -/
def lineTaken (j : CopyJob) (r : BgRequest) (s : State) : State :=
  { s with
    copy := { s.copy with state := .lineRead, request := r }
    locks := { s.locks with copy := some ⟨j.span, s.copy.cursor⟩ } }

theorem takeLine_eq (hj : s.copy.job = some j) : takeLine s = lineTaken j .absent s := by
  have line : sourceLine { s.copy with state := .lineRead, request := .absent } = some ⟨j.span, s.copy.cursor⟩ := by
    rw [sourceLine]; exact congrArg (Option.map _) hj
  simp only [takeLine, State.setCopy_copy, line]; rfl

/-- The READ of a line just taken is all that follows, and it follows when the line is quiet (R98). -/
theorem settle_takeLine {p : PhysLine} (hj : s.copy.job = some j) (hp : p = ⟨j.span, s.copy.cursor⟩)
    (hu : u = lineTaken j (if hostWriteAt s p = false ∧ s.locks.sweep ≠ some p then
      .presented ⟨⟨p, .read⟩, .copyRead, false⟩ else .absent) s) (hs : settled u = true) :
    settle (takeLine s) = u := by
  subst hp
  rw [takeLine_eq hj]
  by_cases quiet : hostWriteAt s ⟨j.span, s.copy.cursor⟩ = false ∧ s.locks.sweep ≠ some ⟨j.span, s.copy.cursor⟩
  · rw [if_pos quiet] at hu
    have idle : serveDue (lineTaken j .absent s) = false := by
      have := ((settled_iff u).1 hs).1
      rw [hu] at this; exact this
    exact settle_of_quietLine idle rfl rfl hj quiet.1 quiet.2 hu hs
  · rw [if_neg quiet] at hu
    rw [← hu, settle_of_settled hs]

/-- With no request to serve, what follows of a line taken is no more than a READ for the copy or the sweep. -/
theorem settle_takeLine_frame (hj : s.copy.job = some j) (hd : serveDue s = false) :
    ∃ q r, settle (takeLine s) = (lineTaken j q s).setSweep { s.sweep with request := r } := by
  rw [takeLine_eq hj]
  have serve : serveDue (lineTaken j .absent s) = false := hd
  have abort : abortEndDue (lineTaken j .absent s) = false := rfl
  have start : startDue (lineTaken j .absent s) = false := rfl
  obtain ⟨q, hq, -⟩ := copyReadIfDue_frame (lineTaken j .absent s)
  obtain ⟨r, hr⟩ := sweepReadIfDue_frame (copyReadIfDue (lineTaken j .absent s))
  refine ⟨q, r, ?_⟩
  simp only [settle, serveWaiting_of_not_due serve, abortEndIfDue_of_not_due abort, considerStart_of_not_due start]
  rw [hr, hq]; rfl

/-! ### The start -/

/-- Every slot is bound, so none is free (R26). -/
theorem freeSlot_eq_none {g : Geometry} {r : Remap}
    (h : ∀ l : Nat, l < g.spareCount → ∃ i : Fin 128, ∃ b ∈ r[i], b.slot = l) : freeSlot g r = none := by
  refine List.find?_eq_none.2 fun l hl hfree => ?_
  obtain ⟨i, b, hb, hbl⟩ := h l (List.mem_range.1 hl)
  exact bindingOfSlot_eq_none_iff.1 (Option.isNone_iff_eq_none.1 hfree) i b hb hbl

/-- COPY_START, for an IDLE engine in ONLINE with a queued head, is the consideration of that head (R95). -/
theorem exec_copyStart {q : Queued} {rest : List Queued} (hi : s.copy.state = .idle) (hm : s.mode = .online)
    (hq : s.retire = q :: rest) : exec .copyStart s = .next (settle (considerStart s)) := by
  have due : (mayStart s && !s.retire.isEmpty) = true := by simp [mayStart, hi, hm, hq]
  exact congrArg Host.Outcome.next (if_pos due)

/-- A head with a free slot and a FREE entry starts its copy (R16, R95). -/
theorem considerStart_of_free {q : Queued} {rest : List Queued} {e : Fin 128} {k : Nat} (hi : s.copy.state = .idle)
    (hm : s.mode = .online) (hq : s.retire = q :: rest) (hk : freeSlot s.geom s.remap = some k)
    (he : freeEntry s.remap = some e) : considerStart s = startCopy q rest e k s := by
  have may : mayStart s = true := by simp [mayStart, hi, hm]
  simp only [considerStart, may, hq, hk, he, if_true]

/-- A head with no free slot is a case of spare exhaustion (R96). -/
theorem considerStart_of_no_slot {q : Queued} {rest : List Queued} (hi : s.copy.state = .idle) (hm : s.mode = .online)
    (hq : s.retire = q :: rest) (hk : freeSlot s.geom s.remap = none) : considerStart s = spareExhausted q s := by
  have may : mayStart s = true := by simp [mayStart, hi, hm]
  simp only [considerStart, may, hq, hk, if_true]

/-- The state of a copy just started, before its BEGIN record is sent (R16, R95). -/
def copyBegun (q : Queued) (rest : List Queued) (e : Fin 128) (k : Nat) (s : State) : State :=
  { offer (spanEvent .retireStarted .copy q.span (some k) (some e.val)) s with
    retire := rest
    remap := s.remap.set e (some ⟨.copying, q.span, k, 0, q.origin, false, 0⟩)
    copy := { idleCopy false with state := .beginning, job := some ⟨e, q.span, k⟩ } }

theorem startCopy_eq (q : Queued) (rest : List Queued) (e : Fin 128) (k : Nat) (s : State) :
    startCopy q rest e k s = sendBegin ⟨e, q.span, k⟩ (copyBegun q rest e k s) := rfl

/-- A BEGIN record that is not skipped joins the request list (R131). -/
theorem sendBegin_of_taken (j : CopyJob) (hk : recordSkipped s = false) :
    sendBegin j s = enqueueRequest (.record ⟨.beginRec, j.span, j.slot, 0⟩) s :=
  if_neg (Bool.eq_false_iff.1 hk)

/-- A BEGIN record that is skipped lets the copy take its first line at once (R97, R131). -/
theorem sendBegin_of_skipped (j : CopyJob) (hk : recordSkipped s = true) (hb : s.copy.state = .beginning) :
    sendBegin j s = takeLine s := by
  rw [sendBegin, if_pos hk, beginReported, hb]

/-- Settles O51. The head's copy starts on the entry and slot that the look-ups find, and what follows is its record
or, with the record skipped, its first line; without a slot the head stays. -/
theorem copiesStart : Obligations.CopiesStart := by
  intro s
  refine ⟨?_, fun q rest hi hm hq hfull => ?_, fun j hr ha hj hw hl => ?_⟩
  · intro q rest e k hi hm hq he hel hk hkf hkl started ctx
    have starts := considerStart_of_free hi hm hq (freeSlot_eq_some hk hkf hkl) (freeEntry_eq_some he hel)
    rw [exec_copyStart hi hm hq, starts, startCopy_eq]
    refine ⟨fun hJ u hu hs => ?_, fun ho _ hw hl u hu hs => ?_⟩
    · rw [sendBegin_of_taken _ (recordSkipped_of_taken (s := copyBegun q rest e k s) hJ),
        settle_enqueueRequest (t := copyBegun q rest e k s) hJ hu hs]
    · rw [sendBegin_of_skipped _ (recordSkipped_of_not_online (s := copyBegun q rest e k s) ho) rfl,
        settle_takeLine (s := copyBegun q rest e k s) rfl rfl (hu.trans ?_) hs]
      rw [if_pos (by exact ⟨hw, hl⟩)]; rfl
  · rw [exec_copyStart hi hm hq, considerStart_of_no_slot hi hm hq (freeSlot_eq_none hfull), spareExhausted]
    refine ⟨fun hx u hu hs _ => ?_, fun hx hs => ?_⟩
    · rw [if_neg (Bool.eq_false_iff.1 hx)]
      exact congrArg Host.Outcome.next ((congrArg settle hu.symm).trans (settle_of_settled hs))
    · rw [if_pos hx, settle_of_settled hs]
  · exact congrArg Host.Outcome.next (copyReadIfDue_of_quiet hr ha hj hw hl)

end Sys2Proof.Machine

namespace Sys2Proof.Machine

/-! ## The copy's reads and retries

Each condition of a read or retry of the cursor line leads to one new copy context: the line carried into the slot, the
line carried there as poison, or a further retry. -/

variable {s t u freed : State} {j : CopyJob} {p : PhysLine} {res : ReadResult} {c : Condition} {d : PortTag} {r : Retry}

/-! ### The copy contexts that a read leads to -/

/-- The cursor line's data presented to its slot line (R99). -/
def CopyCtx.carrying (x : CopyCtx) (slot : PhysLine) (data : LineData) : CopyCtx :=
  { x with
    state := .lineWrite, data := some data, writeKind := some .plain
    request := .presented ⟨⟨slot, .write data fullMask false⟩, .copyWrite, false⟩ }

/-- The cursor line carried into its slot line as poison (R101). -/
def CopyCtx.poisoning (x : CopyCtx) (slot : PhysLine) (k : WriteKind) : CopyCtx :=
  { x with
    state := .lineWrite, writeKind := some k
    request := .presented ⟨⟨slot, .write zeroLine fullMask true⟩, .copyWrite, false⟩ }

/-- A retry of the cursor line presented (R100). -/
def CopyCtx.retrying (x : CopyCtx) (source : PhysLine) (r : Retry) : CopyCtx :=
  { x with
    state := .lineRetry, retry := some r
    request := .presented ⟨⟨source, .read⟩, .copyRetry, false⟩ }

/-- The state with the copy engine's request completed (R70, R74). -/
def State.requestGone (s : State) : State := s.setCopy { s.copy with request := .absent }

/-- `t` has the copy context of `s`, and what the line cycle reads beside it: the geometry and the parameters. -/
structure SameCopy (s t : State) : Prop where
  copy : t.copy = s.copy
  geom : t.geom = s.geom
  params : t.params = s.params

/-- A corrected line counted as fixed and, with log corrected on, reported with CORRECTED after it
(R99, log entry 13). -/
def lineCorrected (p : PhysLine) (s : State) : State :=
  if s.params.logCorrected then offer (lineEvent .corrected .copy p none) (healthIncrement p.span false .copy s)
  else healthIncrement p.span false .copy s

/-- The copy engine's READ of its cursor line made ready (R74, R98). -/
theorem presentCopy_source (body : DownBody) (o : Originator) (hj : s.copy.job = some j) :
    presentCopy (sourceLine s.copy) body o s = s.setCopy { s.copy with
      request := .presented ⟨⟨⟨j.span, s.copy.cursor⟩, body⟩, o, false⟩ } := by
  rw [sourceLine, hj]; rfl

/-- The copy engine's WRITE of its slot line made ready (R74, R99). -/
theorem presentCopy_slot (body : DownBody) (o : Originator) (hj : s.copy.job = some j) :
    presentCopy (slotLine s.geom s.copy) body o s = s.setCopy { s.copy with
      request := .presented ⟨⟨⟨s.geom.spareBase + j.slot, s.copy.cursor⟩, body⟩, o, false⟩ } := by
  rw [slotLine, hj]; rfl

section

variable (hj : s.copy.job = some j) (h : SameCopy s t)

include hj h

theorem copyPoison_eq (k : WriteKind) : copyPoison k t.requestGone =
    t.setCopy (s.copy.poisoning ⟨s.geom.spareBase + j.slot, s.copy.cursor⟩ k) := by
  rw [← h.copy] at hj ⊢
  rw [← h.geom]
  exact presentCopy_slot (s := t.requestGone.setCopy { t.requestGone.copy with
    state := .lineWrite, writeKind := some k }) _ _ hj

theorem copyRetry_eq (r : Retry) : copyRetry r t.requestGone =
    t.setCopy (s.copy.retrying ⟨j.span, s.copy.cursor⟩ r) := by
  rw [← h.copy] at hj ⊢
  exact presentCopy_source (s := t.requestGone.setCopy { t.requestGone.copy with
    state := .lineRetry, retry := some r }) _ _ hj

/-- Data read without correction is carried, and nothing is counted (R99). -/
theorem copyCarry_of_clean (p : PhysLine) (data : LineData) : copyCarry p false data t.requestGone =
    t.setCopy (s.copy.carrying ⟨s.geom.spareBase + j.slot, s.copy.cursor⟩ data) := by
  rw [← h.copy] at hj ⊢
  rw [← h.geom]
  exact presentCopy_slot (s := t.requestGone.setCopy { t.requestGone.copy with
    state := .lineWrite, data := some data, writeKind := some .plain }) _ _ hj

/-- Data read with correction is carried as without it, and then counted and reported (R99). -/
theorem copyCarry_of_fixed (p : PhysLine) (data : LineData) : copyCarry p true data t.requestGone =
    lineCorrected p (t.setCopy (s.copy.carrying ⟨s.geom.spareBase + j.slot, s.copy.cursor⟩ data)) := by
  rw [lineCorrected, ← healthIncrement_params p.span false .copy, ← copyCarry_of_clean hj h p data]; rfl

end

/-! ### A further retry, or none -/

/-- The TRANSIENT event names the retries used (R100). -/
theorem copyTransient_eq (p : PhysLine) (hr : s.copy.retry = some r) :
    copyTransient p s = offer (lineEvent .transient .copy p (some r.used)) s := by
  rw [copyTransient, hr]; rfl

/-- A FAILED retry waits for the next one while retries are left (R100). -/
theorem copyRetryDone_of_left (p : PhysLine) (data : LineData) (hr : s.copy.retry = some r) (hl : r.used < r.limit) :
    copyRetryDone p .failed data s = copyRetry r s := by
  simp only [copyRetryDone, hr, if_pos hl]

/-- The last retry FAILED fails the line for good (R101). -/
theorem copyRetryDone_of_last (p : PhysLine) (data : LineData) (hr : s.copy.retry = some r) (hl : r.used = r.limit) :
    copyRetryDone p .failed data s = copyFailed p s := by
  simp only [copyRetryDone, hr, if_neg (Nat.not_lt.2 hl.ge)]

/-! ### Whose completion it is -/

/-- A response to the copy's READ that reports about its data completes the first READ of the line (R99). -/
theorem exec_copyRead {re : Bool} {data : LineData} (hf : freed = setTag d .free s) (hs : s.copy.state = .lineRead)
    (ht : s.port.tags[d] = .inUse ⟨⟨p, .read⟩, .copyRead, re⟩) (hc : readResult c = some res)
    (hu : copyReadDone p res data freed.requestGone = u) (hset : settled u = true) :
    exec (.downstreamResponse d c data) s = .next u := by
  refine exec_response_of_settled ht (Eq.trans ?_ hu) hset
  have state : freed.requestGone.copy.state ≠ .aborting := by
    show freed.copy.state ≠ _; rw [hf]; show s.copy.state ≠ _; rw [hs]; nofun
  simp only [completeIssue, hc, readCompletes, ← hf]
  exact (if_neg state).trans (if_neg nofun)

/-- A response to the copy's retry that reports about its data completes that retry (R100). -/
theorem exec_copyRetry {re : Bool} {data : LineData} (hf : freed = setTag d .free s) (hs : s.copy.state = .lineRetry)
    (ht : s.port.tags[d] = .inUse ⟨⟨p, .read⟩, .copyRetry, re⟩) (hc : readResult c = some res)
    (hu : copyRetryDone p res data freed.requestGone = u) (hset : settled u = true) :
    exec (.downstreamResponse d c data) s = .next u := by
  refine exec_response_of_settled ht (Eq.trans ?_ hu) hset
  have state : freed.requestGone.copy.state ≠ .aborting := by
    show freed.copy.state ≠ _; rw [hf]; show s.copy.state ≠ _; rw [hs]; nofun
  simp only [completeIssue, hc, readCompletes, ← hf]
  exact (if_neg state).trans (if_pos rfl)

end Sys2Proof.Machine

namespace Sys2Proof.Machine

/-! ## The copy's slot writes, and the line cycle

A slot write DONE leaves its line (`lineLeft`); then the copy takes the next line or, after line 63, sends its ASSIGN
record. -/

variable {s t u : State} {j : CopyJob} {b : Binding} {k : WriteKind} {d : PortTag}

/-! ### The entry and the event -/

theorem modifyJobEntry_eq (f : Binding → Binding) (hj : s.copy.job = some j) (hb : s.remap[j.entry] = some b)
    (ha : b.stage ≠ .active) : modifyJobEntry f s = s.setRemap (s.remap.set j.entry (some (f b))) := by
  have hb : s.remap[j.entry] = some b := hb
  simp only [modifyJobEntry, hj, modifyEntry, hb, if_neg ha]

/-- The entry once the slot write of line `c` is DONE, in COMMITTING after line 63 (R17, R18, R25). -/
def Binding.lineDone (b : Binding) (c : Nat) (k : WriteKind) : Binding :=
  { b with
    stage := if c < 63 then .copying else .committing
    copied := c + 1
    poisoned := if k = .plain then b.poisoned else b.poisoned + 1 }

theorem Binding.lineDone_plain {c : Nat} (hs : b.stage = .copying) (hc : c < 63) :
    b.lineDone c .plain = { b with copied := c + 1 } := by
  simp [Binding.lineDone, hc, ← hs]

/-- The slot write counted in an entry in COPYING is all that a line below the last changes (R17, R25). -/
theorem lineCopied_of_more {c : Nat} (hs : b.stage = .copying) (hc : c < 63) :
    lineCopied c (markedWrite (some k)) b = b.lineDone c k := by
  cases k <;> simp [lineCopied, Binding.lineDone, markedWrite, hc, hs]

/-- After the last line the entry goes on to COMMITTING (R18). -/
theorem lineCopied_of_last {c : Nat} (hc : ¬ c < 63) :
    { lineCopied c (markedWrite (some k)) b with stage := .committing } = b.lineDone c k := by
  cases k <;> simp [lineCopied, Binding.lineDone, markedWrite, hc]

/-- A marked line is reported (R102). -/
def reportCarried (j : CopyJob) (k : WriteKind) (s : State) : State :=
  if k = .plain then s else offer
    { kind := .lineCarriedPoison, source := .copy, span := some j.span, offset := some s.copy.cursor
      slot := some j.slot, value := some (if k = .poisonFailed then 1 else 2) } s

/-- The copy context with the fields of its line cleared (R102). -/
def CopyCtx.lineCleared (x : CopyCtx) : CopyCtx := { x with data := none, writeKind := none, retry := none }

/-- The entry counted, and a marked line reported (R17, R25, R102). -/
def lineCounted (j : CopyJob) (b : Binding) (k : WriteKind) (s : State) : State :=
  (reportCarried j k s).setRemap (s.remap.set j.entry (some (b.lineDone s.copy.cursor k)))

/-- The copy off its line once the slot write is DONE (R102). -/
def lineLeft (j : CopyJob) (b : Binding) (k : WriteKind) (s : State) : State :=
  removeHolder .copy ((lineCounted j b k s).setCopy s.copy.lineCleared)

theorem reportCarried_frame (j : CopyJob) (k : WriteKind) (s : State) : ∃ E, reportCarried j k s = s.setEvents E := by
  unfold reportCarried; split
  · exact ⟨s.events, rfl⟩
  · exact ⟨_, rfl⟩

theorem reportCarried_copy (j : CopyJob) (k : WriteKind) (s : State) : (reportCarried j k s).copy = s.copy := by
  obtain ⟨E, h⟩ := reportCarried_frame j k s
  rw [h]; rfl

/-- The model's report of a line, read off the slot write's kind. -/
theorem reportCarried_eq (j : CopyJob) (r : Remap) (hk : s.copy.writeKind = some k) :
    (if markedWrite s.copy.writeKind then offer (carriedEvent j s.copy.cursor s.copy.writeKind) (s.setRemap r)
      else s.setRemap r) = (reportCarried j k s).setRemap r := by
  rw [hk]; cases k <;> rfl

theorem lineLeft_copy (j : CopyJob) (b : Binding) (k : WriteKind) (s : State) :
    (lineLeft j b k s).copy = s.copy.lineCleared := removeHolder_copy _ _

theorem lineLeft_journal (j : CopyJob) (b : Binding) (k : WriteKind) (s : State) :
    (lineLeft j b k s).journal = s.journal := by
  obtain ⟨E, h⟩ := reportCarried_frame j k s
  rw [lineLeft, removeHolder_journal, lineCounted, h]; rfl

/-- Of the tables, leaving the line changes the copy's own entry (R102). -/
theorem lineLeft_tables (j : CopyJob) (b : Binding) (k : WriteKind) (s : State) :
    (lineLeft j b k s).remap = s.remap.set j.entry (some (b.lineDone s.copy.cursor k)) ∧
      (lineLeft j b k s).health = s.health ∧ (lineLeft j b k s).retire = s.retire := by
  obtain ⟨E, hE⟩ := reportCarried_frame j k s
  obtain ⟨H, K, L, T, h⟩ := removeHolder_frame .copy ((lineCounted j b k s).setCopy s.copy.lineCleared)
  rw [lineLeft, h, lineCounted, hE]
  exact ⟨rfl, rfl, rfl⟩

section

variable (hj : s.copy.job = some j) (hk : s.copy.writeKind = some k) (hs : b.stage = .copying)

include hj hk hs

/-- Below line 63 the entry stays in COPYING; after it the entry is in COMMITTING (R17, R18). -/
theorem lineCounted_eq : lineCounted j b k s =
    if s.copy.cursor < 63 then
      (reportCarried j k s).setRemap
        (s.remap.set j.entry (some (lineCopied s.copy.cursor (markedWrite s.copy.writeKind) b)))
    else
      modifyJobEntry (fun b => { b with stage := .committing }) ((reportCarried j k s).setRemap
        (s.remap.set j.entry (some (lineCopied s.copy.cursor (markedWrite s.copy.writeKind) b)))) := by
  split
  next hc => rw [hk, lineCopied_of_more hs hc]; rfl
  next hc =>
    rw [modifyJobEntry_eq (j := j) (b := lineCopied s.copy.cursor (markedWrite s.copy.writeKind) b)]
    · simp only [State.setRemap_remap, Vector.set_set]
      rw [hk, lineCopied_of_last hc]; rfl
    · rw [State.setRemap_copy, reportCarried_copy, hj]
    · rw [State.setRemap_remap, vector_set_getElem, if_pos rfl]
    · simp [lineCopied, hs]

/-- The slot write DONE takes the copy off its line, and on to the next line or to its ASSIGN record (R102). -/
theorem slotWriteDone_eq (hb : s.remap[j.entry] = some b) : slotWriteDone j s =
    if s.copy.cursor < 63 then
      takeLine ((lineLeft j b k s).setCopy { s.copy.lineCleared with cursor := s.copy.cursor + 1 })
    else sendAssign ((lineLeft j b k s).setCopy { s.copy.lineCleared with state := .committing }) := by
  have left : (removeHolder .copy (lineCounted j b k s)).setCopy s.copy.lineCleared = lineLeft j b k s :=
    (removeHolder_setCopy _ _ _).symm
  have copy : (removeHolder .copy (lineCounted j b k s)).copy = s.copy := by
    rw [removeHolder_copy]; exact reportCarried_copy j k s
  simp only [slotWriteDone, modifyJobEntry_eq _ hj hb (by simp [hs]), reportCarried_eq j _ hk]
  rw [← lineCounted_eq hj hk hs, copy, ← left]; rfl

end

/-! ### ASSIGN sent -/

/-- The poisoned-line count that the ASSIGN record carries is that of the copy's own entry (R25, R102). -/
theorem jobPoisoned_eq (hj : t.copy.job = some j) (hb : t.remap[j.entry] = some b) : jobPoisoned t = b.poisoned := by
  rw [jobPoisoned, hj]; exact congrArg (fun x : Option Binding => (x.map Binding.poisoned).getD 0) hb

/-- ASSIGN sent to a journal that takes records is all that follows (R102, R131). -/
theorem settle_sendAssign_of_taken (hj : t.copy.job = some j) (hb : t.remap[j.entry] = some b)
    (hJ : t.journal.TakesRecords)
    (hu : u = { t with journal := t.journal.asked ⟨.assignRec, j.span, j.slot, b.poisoned⟩ })
    (hs : settled u = true) : settle (sendAssign t) = u := by
  simp only [sendAssign, hj, recordSkipped_of_taken hJ, jobPoisoned_eq hj hb]
  exact settle_enqueueRequest hJ hu hs

/-- ASSIGN skipped is reported at once: the entry is ACTIVE, and the copy engine IDLE (R18, R87, R105, R131). -/
theorem sendAssign_of_skipped (hj : t.copy.job = some j) (hb : t.remap[j.entry] = some b) (ha : b.stage ≠ .active)
    (hJ : t.journal.store ≠ .online) : sendAssign t =
      { offer (spanEvent .retireDone .copy j.span (some j.slot) (some b.poisoned)) t with
        remap := t.remap.set j.entry (some { b with stage := .active, journaled := false })
        health := removeRetired j.span t.health
        copy := idleCopy t.copy.exhausted } := by
  have hb : t.remap[j.entry] = some b := hb
  simp only [sendAssign, assignReported, hj, recordSkipped_of_not_online hJ, jobPoisoned_eq hj hb, modifyEntry, hb,
    if_neg ha, if_true]
  rfl

/-! ### What follows of a slot write -/

section

variable {b' : Binding} {left : State} (hj : s.copy.job = some j) (hk : s.copy.writeKind = some k)
  (hs : b.stage = .copying) (hb : s.remap[j.entry] = some b) (hdone : b' = b.lineDone s.copy.cursor k)
  (hleft : left = lineLeft j b k s)

include hj hk hs hb hleft

/-- Below line 63 the next line is taken, whatever else follows (R17, R102). -/
theorem settle_slotWriteDone_frame (hc : s.copy.cursor < 63) (hd : serveDue s = false) :
    ∃ q r, settle (slotWriteDone j s) = (lineTaken j q (left.setCopy
      { s.copy.lineCleared with cursor := s.copy.cursor + 1 })).setSweep { left.sweep with request := r } := by
  rw [slotWriteDone_eq hj hk hs hb, if_pos hc, ← hleft]
  refine settle_takeLine_frame hj ?_
  rw [serveDue, State.setCopy_journal, hleft, lineLeft_journal]; exact hd

/-- Below line 63 the next line's READ is all that follows, and it follows when that line is quiet (R98, R102). -/
theorem settle_slotWriteDone_of_more {p : PhysLine} (hc : s.copy.cursor < 63) (hp : p = ⟨j.span, s.copy.cursor + 1⟩)
    (hu : u = { left with
      locks := { left.locks with copy := some p }
      copy := { left.copy with
        state := .lineRead, cursor := s.copy.cursor + 1
        request := if hostWriteAt left p = false ∧ left.locks.sweep ≠ some p then
          .presented ⟨⟨p, .read⟩, .copyRead, false⟩ else .absent } }) (hset : settled u = true) :
    settle (slotWriteDone j s) = u := by
  have lcopy : left.copy = s.copy.lineCleared := by rw [hleft, lineLeft_copy]
  rw [slotWriteDone_eq hj hk hs hb, if_pos hc, ← hleft]
  refine settle_takeLine (s := left.setCopy { s.copy.lineCleared with cursor := s.copy.cursor + 1 }) hj hp ?_ hset
  rw [hu, lcopy, hp]; rfl

include hdone

/-- After line 63 the ASSIGN record asked for is all that follows, when the journal takes it (R102). -/
theorem settle_slotWriteDone_of_taken (hc : s.copy.cursor = 63) (hJ : s.journal.TakesRecords)
    (hu : u = { left with
      copy := { left.copy with state := .committing }
      journal := s.journal.asked ⟨.assignRec, j.span, j.slot, b'.poisoned⟩ }) (hset : settled u = true) :
    settle (slotWriteDone j s) = u := by
  have lcopy : left.copy = s.copy.lineCleared := by rw [hleft, lineLeft_copy]
  have ljournal : left.journal = s.journal := by rw [hleft, lineLeft_journal]
  obtain ⟨lremap, -, -⟩ := lineLeft_tables j b k s
  rw [slotWriteDone_eq hj hk hs hb, if_neg (by omega), ← hleft]
  refine settle_sendAssign_of_taken (t := left.setCopy { s.copy.lineCleared with state := .committing })
    (b := b') hj ?_ ?_ ?_ hset
  · rw [State.setCopy_remap, hleft, lremap, vector_set_getElem, if_pos rfl, hdone]
  · rw [State.setCopy_journal, ljournal]; exact hJ
  · rw [hu, lcopy, State.setCopy_journal, ljournal]; rfl

/-- After line 63 the entry is ACTIVE at once, when the ASSIGN record is skipped (R102, R105). -/
theorem settle_slotWriteDone_of_skipped (hc : s.copy.cursor = 63) (hJ : s.journal.store ≠ .online)
    (hu : u = { offer (spanEvent .retireDone .copy j.span (some j.slot) (some b'.poisoned)) left with
      remap := s.remap.set j.entry (some { b' with stage := .active, journaled := false })
      health := removeRetired j.span s.health
      copy := idleCopy s.copy.exhausted }) (hset : settled u = true) : settle (slotWriteDone j s) = u := by
  have ljournal : left.journal = s.journal := by rw [hleft, lineLeft_journal]
  obtain ⟨lremap, lhealth, -⟩ := lineLeft_tables j b k s
  rw [← hleft] at lremap lhealth
  rw [slotWriteDone_eq hj hk hs hb, if_neg (by omega), ← hleft, sendAssign_of_skipped (j := j) (b := b')]
  · rw [State.setCopy_remap, State.setCopy_health, lremap, lhealth, Vector.set_set]
    exact (congrArg settle hu.symm).trans (settle_of_settled hset)
  · exact hj
  · rw [State.setCopy_remap, lremap, vector_set_getElem, if_pos rfl, hdone]
  · simp [hdone, Binding.lineDone, hc]
  · rw [State.setCopy_journal, ljournal]; exact hJ

end

/-! ### The response to a slot write -/

/-- A slot write DONE in LINE WRITE is one of COPYING, with its request gone (R102). -/
theorem copyWriteCompletes_of_lineWrite (i : Issue) (hj : s.copy.job = some j) (hs : s.copy.state = .lineWrite) :
    copyWriteCompletes i s = slotWriteDone j s.requestGone := by
  have job : s.requestGone.copy.job = some j := hj
  have state : s.requestGone.copy.state ≠ .aborting := by
    show s.copy.state ≠ _; rw [hs]; nofun
  rw [State.requestGone] at *
  simp only [copyWriteCompletes, job, if_neg state]

/-- The state in which a completion of the copy engine goes on: the tag FREE, and the request gone (R70). -/
def copyAnswered (d : PortTag) (s : State) : State := (setTag d .free s).requestGone

/-- DONE for the copy's WRITE, in LINE WRITE, completes the slot write (R70, R102). -/
theorem exec_copyWrite {x : DownBody} {p : PhysLine} {re : Bool} (data : LineData) (hj : s.copy.job = some j)
    (hs : s.copy.state = .lineWrite) (hx : x ≠ .read) (ht : s.port.tags[d] = .inUse ⟨⟨p, x⟩, .copyWrite, re⟩) :
    exec (.downstreamResponse d .done data) s = .next (settle (slotWriteDone j (copyAnswered d s))) := by
  refine congrArg Host.Outcome.next ((portResponse_of_inUse .done data ht).trans (congrArg settle ?_))
  cases x with
  | read => exact absurd rfl hx
  | write y m mark => exact copyWriteCompletes_of_lineWrite (s := setTag d .free s) _ hj hs

/-! ### O52 -/

/-- Settles O52. A read or a retry leads to the copy context of its condition; a slot write leaves its line, and what
follows is the next line's READ or the ASSIGN record. -/
theorem copyLinesAdvance : Obligations.CopyLinesAdvance := by
  intro s d j re data hj freed hfreed source slot hsource hslot carried corrected poisoned retried
  have same : SameCopy s freed := by rw [hfreed]; exact ⟨rfl, rfl, rfl⟩
  have clean (t : State) (h : SameCopy s t) : copyCarry source false data t.requestGone = carried t := by
    rw [copyCarry_of_clean hj h, ← hslot]; rfl
  have fixed (t : State) (h : SameCopy s t) : copyCarry source true data t.requestGone = corrected t := by
    rw [copyCarry_of_fixed hj h, ← hslot, lineCorrected, State.setCopy_params, h.params]; rfl
  have poison (k : WriteKind) : copyPoison k freed.requestGone = poisoned k := by
    rw [copyPoison_eq hj same, ← hslot]; rfl
  have retry (r : Retry) : copyRetry r freed.requestGone = retried r := by
    rw [copyRetry_eq hj same, ← hsource]; rfl
  have failed : copyFailed source freed.requestGone = healthIncrement source.span true .copy (poisoned .poisonFailed) :=
    congrArg (healthIncrement source.span true .copy) (poison .poisonFailed)
  refine ⟨fun hs ht => ?_, fun r hs hr ht told htold => ?_, ?_, ?_⟩
  · have ends (res : ReadResult) {c : Condition} (hc : readResult c = some res) {t : State}
        (done : copyReadDone source res data freed.requestGone = t) (u : State) (hu : u = t) :=
      exec_copyRead hfreed hs ht hc (done.trans hu.symm)
    have limit : freed.requestGone.params.retryLimit = s.params.retryLimit := congrArg Params.retryLimit same.params
    refine ⟨ends .clean rfl (clean freed same), ends .fixed rfl (fixed freed same),
      ends .poisoned rfl (poison .poisonCarried), fun h0 => ends .failed rfl ?_, fun h0 => ends .failed rfl ?_⟩
    · exact (if_pos (limit.trans h0)).trans failed
    · rw [← limit] at h0 ⊢
      exact (if_neg h0).trans (retry _)
  · have ends (res : ReadResult) {c : Condition} (hc : readResult c = some res) {t : State}
        (done : copyRetryDone source res data freed.requestGone = t) (u : State) (hu : u = t) :=
      exec_copyRetry hfreed hs ht hc (done.trans hu.symm)
    have used : freed.requestGone.copy.retry = some r := (congrArg CopyCtx.retry same.copy).trans hr
    have sameTold : SameCopy s told := by rw [htold]; exact ⟨same.copy, same.geom, same.params⟩
    have recovered : copyTransient source freed.requestGone = told.requestGone := by
      rw [copyTransient_eq source used, htold]; rfl
    refine ⟨ends .clean rfl ?_, ends .fixed rfl ?_, ends .poisoned rfl (poison .poisonCarried),
      fun hl => ends .failed rfl ?_, fun hl => ends .failed rfl ?_⟩
    · exact (congrArg (copyCarry source false data) recovered).trans (clean told sameTold)
    · exact (congrArg (copyCarry source true data) recovered).trans (fixed told sameTold)
    · exact (copyRetryDone_of_left source data used hl).trans (retry r)
    · exact (copyRetryDone_of_last source data used hl).trans failed
  · intro b x p hs hk hc hd hx ht hb hcopy
    obtain ⟨left, hleft⟩ : ∃ left, left = lineLeft j b .plain (copyAnswered d s) := ⟨_, rfl⟩
    obtain ⟨q, r, follows⟩ := settle_slotWriteDone_frame (s := copyAnswered d s) hj hk hcopy hb hleft hc hd
    obtain ⟨hremap, hhealth, hretire⟩ := lineLeft_tables j b .plain (copyAnswered d s)
    rw [← hleft] at hremap hhealth hretire
    refine ⟨_, exec_copyWrite data hj hs hx ht, ?_⟩
    rw [follows]
    refine ⟨hremap.trans ?_, rfl, rfl, hj, rfl, hretire, hhealth⟩
    exact congrArg (fun x => s.remap.set j.entry (some x)) (Binding.lineDone_plain hcopy hc)
  · intro b x p k hs hk hx ht hb hcopy b' hb' left hleft
    have left_eq : left = lineLeft j b k freed.requestGone := by
      have remap : freed.remap = s.remap := by rw [hfreed]
      rw [hleft, hb', ← same.copy, ← remap]; cases k <;> rfl
    rw [hfreed] at left_eq
    rw [exec_copyWrite data hj hs hx ht]
    refine ⟨fun hc next u hn hu hset => congrArg Host.Outcome.next ?_,
      fun hc hJ u hu hset => congrArg Host.Outcome.next ?_, fun hc hJ u hu hset => congrArg Host.Outcome.next ?_⟩
    · exact settle_slotWriteDone_of_more (s := copyAnswered d s) hj hk hcopy hb left_eq hc hn hu hset
    · exact settle_slotWriteDone_of_taken (s := copyAnswered d s) hj hk hcopy hb hb' left_eq hc hJ hu hset
    · exact settle_slotWriteDone_of_skipped (s := copyAnswered d s) hj hk hcopy hb hb' left_eq hc hJ hu hset

end Sys2Proof.Machine

namespace Sys2Proof.Machine

/-! ## The sweep's position, and its commands

What the pool does to a position (R114), and what a pass end keeps; then each command of R123 and R124 as taken on a
free link, by the sweep's state. -/

variable {s : State} {g : Geometry} {n : Nat}

/-! ### The position -/

/-- The first line above the pool. -/
def Geometry.abovePool (g : Geometry) : Nat := (g.spareBase + g.spareCount) * 64

theorem skipPool_of_outside (h : g.inPool (n / 64) = false) : skipPool g n = n := if_neg (Bool.eq_false_iff.1 h)

theorem skipPool_of_inPool (h : g.inPool (n / 64) = true) : skipPool g n = g.abovePool := if_pos h

/-- The pool is one run of spans, so the line above it is outside it (R12). -/
theorem Geometry.inPool_abovePool (g : Geometry) : g.inPool (g.abovePool / 64) = false := by
  simp [inPool, abovePool]

theorem positionFrom_of_outside (h : g.inPool (n / 64) = false) (hn : n < g.memSize * 64) :
    positionFrom g n = some n := by
  rw [positionFrom, skipPool_of_outside h, if_pos hn]

theorem positionFrom_of_inPool (h : g.inPool (n / 64) = true) (hn : g.abovePool < g.memSize * 64) :
    positionFrom g n = some g.abovePool := by
  rw [positionFrom, skipPool_of_inPool h, if_pos hn]

theorem positionFrom_of_past (hn : g.memSize * 64 ≤ skipPool g n) : positionFrom g n = none := if_neg (Nat.not_lt.2 hn)

theorem advance_of_some (h : positionFrom s.geom (s.sweep.position + 1) = some n) :
    advance s = s.setSweep { s.sweep with position := n } := by
  simp only [advance, h]

theorem advance_of_none (h : positionFrom s.geom (s.sweep.position + 1) = none) : advance s = passEnd s := by
  simp only [advance, h]

/-- An advance, with a pass end or without, leaves the mode (R114, R121). -/
theorem advance_mode (s : State) : (advance s).mode = s.mode := by unfold advance; split <;> rfl

/-- An advance, with a pass end or without, leaves a pending stop (R114, R121). -/
theorem advance_stopPending (s : State) : (advance s).sweep.stopPending = s.sweep.stopPending := by
  unfold advance; split <;> rfl

theorem firstPosition_of_outside (h : g.inPool 0 = false) : firstPosition g = 0 := by
  rw [firstPosition, skipPool_of_outside h, ite_self]

/-- A pool that begins at span 0 ends at its own count of spans (R12). -/
theorem Geometry.abovePool_of_inPool_zero (h : g.inPool 0 = true) : g.abovePool = g.spareCount * 64 := by
  have hbase : g.spareBase = 0 := by simp [inPool] at h; omega
  rw [abovePool, hbase, Nat.zero_add]

theorem firstPosition_of_inPool (h : g.inPool 0 = true) (hc : g.spareCount < g.memSize) :
    firstPosition g = g.spareCount * 64 := by
  rw [firstPosition, skipPool_of_inPool h, Geometry.abovePool_of_inPool_zero h, if_pos (by omega)]

/-- With every span in the pool the position is 0 (R114). -/
theorem firstPosition_of_all (hc : g.spareCount = g.memSize) : firstPosition g = 0 := by
  cases h : g.inPool 0 with
  | false => exact firstPosition_of_outside h
  | true => rw [firstPosition, skipPool_of_inPool h, Geometry.abovePool_of_inPool_zero h, if_neg (by omega)]

/-! ### WAITING -/

/-- A sweep that is WAITING already has its timer started (R115). -/
theorem sweepWait_of_waiting (h : s.sweep.state = .waiting) :
    sweepWait s = s.setSweep { s.sweep with timer := some s.sweep.interval } := by
  rw [sweepWait, ← h]; rfl

theorem not_lineInProgress_of_stopped {w : Sweep} (h : w.state = .stopped) : ¬ lineInProgress w = true := by
  simp [lineInProgress, h]

theorem not_lineInProgress_of_waiting {w : Sweep} (h : w.state = .waiting) : ¬ lineInProgress w = true := by
  simp [lineInProgress, h]

/-! ### The commands as taken -/

theorem sweepStop_eq (hb : s.link.busy = false) (hm : s.mode ≠ .startup) :
    exec (.sweepStop []) s = .next (answer .ok [] (sweepStopNow (takeFrame s))) :=
  congrArg Host.Outcome.next
    (takeCommand_read (fun t => answer .ok [] (sweepStopNow t)) hb hm rfl (Nat.zero_le _))

theorem sweepStart_eq (hb : s.link.busy = false) (hm : s.mode = .online) :
    exec (.sweepStart []) s = .next (answer .ok [] (sweepStartNow (takeFrame s))) :=
  congrArg Host.Outcome.next (takeCommand_taken (f := fun t => answer .ok [] (sweepStartNow t)) hb
    (by simp [inOnline, hm]) rfl (Nat.zero_le _))

theorem sweepRestart_eq (hb : s.link.busy = false) (hm : s.mode ≠ .startup) :
    exec (.sweepRestart []) s = .next (sweepRestartBody (takeFrame s)) :=
  congrArg Host.Outcome.next (takeCommand_read _ hb hm rfl (Nat.zero_le _))

/-- Sweep enable set off is SWEEP_STOP (R123). -/
theorem setParam_sweepEnable_off (hb : s.link.busy = false) (hm : s.mode ≠ .startup) :
    exec (.setParam [7, 0, 0]) s = .next (answer .ok [] (sweepStopNow (takeFrame s))) :=
  congrArg Host.Outcome.next (takeCommand_read (setParamBody 7 0) hb hm rfl (by decide))

/-- Sweep enable set on is SWEEP_START, and is taken in FENCED too (R123, Table 11-4). -/
theorem setParam_sweepEnable_on (hb : s.link.busy = false) (hm : s.mode ≠ .startup) :
    exec (.setParam [7, 1, 0]) s = .next (answer .ok [] (sweepStartNow (takeFrame s))) :=
  congrArg Host.Outcome.next (takeCommand_read (setParamBody 7 1) hb hm rfl (by decide))

/-! ### The sweep stopped and started -/

theorem sweepStopNow_of_stopped (h : s.sweep.state = .stopped) :
    sweepStopNow s = s.setParams { s.params with sweepEnable := false } :=
  (if_neg (not_lineInProgress_of_stopped h)).trans (if_neg (by simp [h]))

theorem sweepStopNow_of_waiting (h : s.sweep.state = .waiting) :
    sweepStopNow s = sweepHalt (s.setParams { s.params with sweepEnable := false }) :=
  (if_neg (not_lineInProgress_of_waiting h)).trans (if_pos h)

theorem sweepStopNow_of_line (h : lineInProgress s.sweep = true) : sweepStopNow s =
    (s.setParams { s.params with sweepEnable := false }).setSweep { s.sweep with stopPending := true } :=
  if_pos h

theorem sweepStartNow_of_stopped (hm : s.mode = .online) (h : s.sweep.state = .stopped) :
    sweepStartNow s = sweepWait (s.setParams { s.params with sweepEnable := true }) :=
  (if_pos hm).trans ((if_neg (not_lineInProgress_of_stopped h)).trans (if_pos h))

theorem sweepStartNow_of_waiting (hm : s.mode = .online) (h : s.sweep.state = .waiting) :
    sweepStartNow s = s.setParams { s.params with sweepEnable := true } :=
  (if_pos hm).trans ((if_neg (not_lineInProgress_of_waiting h)).trans (if_neg (by simp [h])))

theorem sweepStartNow_of_line (hm : s.mode = .online) (h : lineInProgress s.sweep = true) : sweepStartNow s =
    (s.setParams { s.params with sweepEnable := true }).setSweep { s.sweep with stopPending := false } :=
  (if_pos hm).trans (if_pos h)

theorem sweepStartNow_of_not_online (hm : s.mode ≠ .online) :
    sweepStartNow s = s.setParams { s.params with sweepEnable := true } := if_neg hm

/-- Settles O27. The command is taken, and what it does goes by the sweep's state; the restart's position is the first
line outside the pool. -/
theorem sweepCommandsActByState : Obligations.SweepCommandsActByState := by
  refine fun s hb => ⟨fun hm => ?_, fun hm => ?_, fun hm => ?_, fun hm _ => ?_⟩
  · rw [sweepStop_eq hb hm, setParam_sweepEnable_off hb hm]
    refine ⟨fun h => ?_, fun h => ?_, fun h => ?_, rfl⟩
    · rw [sweepStopNow_of_stopped (s := takeFrame s) h]; rfl
    · rw [sweepStopNow_of_waiting (s := takeFrame s) h]; rfl
    · rw [sweepStopNow_of_line (s := takeFrame s) h]; rfl
  · rw [sweepStart_eq hb hm, setParam_sweepEnable_on hb (by simp [hm])]
    refine ⟨fun h => ?_, fun h => ?_, fun h => ?_, rfl⟩
    · rw [sweepStartNow_of_stopped (s := takeFrame s) hm h]; rfl
    · rw [sweepStartNow_of_waiting (s := takeFrame s) hm h]; rfl
    · rw [sweepStartNow_of_line (s := takeFrame s) hm h]; rfl
  · have not_online : (takeFrame s).mode ≠ .online := by show s.mode ≠ _; simp [hm]
    rw [setParam_sweepEnable_on hb (by simp [hm]), sweepStartNow_of_not_online not_online]; rfl
  · rw [sweepRestart_eq hb hm]
    exact ⟨firstPosition s.geom, rfl, firstPosition_of_outside, firstPosition_of_inPool, firstPosition_of_all⟩

end Sys2Proof.Machine

namespace Sys2Proof.Machine

/-! ## The sweep's line cycle

A line visited is taken or skipped; a read or a retry of it leads to the end of the line, to a writeback or to a further
retry; a line's end counts the line, leaves it and moves on. -/

variable {s t u : State} {p : PhysLine} {n : Nat} {d : PortTag} {c : Condition} {res : ReadResult} {r : Retry}

/-! ### Statistics below their top -/

theorem riseStat_of_below {v : BitVec 32} (h : v ≠ BitVec.allOnes 32) (k : Nat) : riseStat v k = (v + 1, k) := if_neg h

theorem countSkipped_of_below {w : Sweep} (h : w.stats.skipped ≠ BitVec.allOnes 32) :
    countSkipped w = { w with stats := { w.stats with skipped := w.stats.skipped + 1 } } := by
  simp only [countSkipped, riseStat_of_below h]

theorem countFailed_of_below {w : Sweep} (h : w.stats.failed ≠ BitVec.allOnes 32) :
    countFailed w = { w with stats := { w.stats with failed := w.stats.failed + 1 } } := by
  simp only [countFailed, riseStat_of_below h]

theorem countPoisoned_of_below {w : Sweep} (h : w.stats.poisonedFound ≠ BitVec.allOnes 32) :
    countPoisoned w = { w with stats := { w.stats with poisonedFound := w.stats.poisonedFound + 1 } } := by
  simp only [countPoisoned, riseStat_of_below h]

/-! ### The interval timer's expiry -/

/-- SWEEP_INTERVAL_EXPIRY is the expiry while the timer of a WAITING sweep runs in ONLINE (R115, R116). -/
theorem exec_sweepIntervalExpiry (hw : s.sweep.state = .waiting) (ht : s.sweep.timer = some n)
    (hm : s.mode = .online) : exec .sweepIntervalExpiry s = .next (sweepExpire s) :=
  congrArg Host.Outcome.next (if_pos (by simp [hw, ht, hm]))

theorem sweepExpire_of_some (h : positionFrom s.geom s.sweep.position = some n) :
    sweepExpire s = sweepVisit (s.setSweep { s.sweep with position := n }) := by
  simp only [sweepExpire, h]

theorem sweepExpire_of_none (h : positionFrom s.geom s.sweep.position = none) :
    sweepExpire s = sweepWait (passEnd s) := by
  simp only [sweepExpire, h]

/-- A line is not taken when it is locked, or when the Hold List has a request for its host line (R116). -/
theorem sweepTakes_eq_false_iff : sweepTakes s n p = false ↔ s.locks.locked p = true ∨
    ∃ t ∈ s.hold, ∃ r ∈ s.host.recs[t], r.line.toNat = n := by
  simp only [sweepTakes, HostPort.isFor, Bool.and_eq_false_iff, Bool.not_eq_false', List.any_eq_true,
    Option.any_eq_true, beq_iff_eq]
  rfl

/-- A line that is under copy or not taken is skipped (R116). -/
theorem sweepVisit_of_skipped (h : sweepLine s s.sweep.position = none ∨
    ∃ p, sweepLine s s.sweep.position = some p ∧ sweepTakes s s.sweep.position p = false) :
    sweepVisit s = sweepSkip s := by
  rcases h with h | ⟨p, h, ht⟩
  · simp only [sweepVisit, h]
  · simp only [sweepVisit, h, ht, Bool.false_eq_true, if_false]

/-- A skip by a WAITING sweep counts the line, advances and starts the timer (R115, R116). -/
theorem sweepSkip_of_waiting (hw : s.sweep.state = .waiting) (h : s.sweep.stats.skipped ≠ BitVec.allOnes 32)
    (ht : t = advance (s.setSweep { s.sweep with stats :=
      { s.sweep.stats with skipped := s.sweep.stats.skipped + 1 } })) :
    sweepSkip s = t.setSweep { t.sweep with timer := some t.sweep.interval } := by
  rw [sweepSkip, countSkipped_of_below h, ← ht]
  refine sweepWait_of_waiting ?_
  rw [ht, advance_state]; exact hw

theorem presentSweep_of_line (body : DownBody) (o : Originator) (h : s.sweep.line = some p) :
    presentSweep body o s = s.setSweep { s.sweep with request := .presented ⟨⟨p, body⟩, o, false⟩ } := by
  simp only [presentSweep, h]

/-- A line in READING with no request has its READ presented when it is quiet (R117). -/
theorem sweepReadIfDue_of_reading (hs : s.sweep.state = .reading) (ha : s.sweep.request = .absent)
    (hl : s.sweep.line = some p) : sweepReadIfDue s = s.setSweep { s.sweep with
      request := if sweepQuiet s p then .presented ⟨⟨p, .read⟩, .sweepRead, false⟩ else .absent } := by
  have due : sweepReadDue s = sweepQuiet s p := by simp [sweepReadDue, hs, ha, hl]
  rw [sweepReadIfDue, due, presentSweep_of_line _ _ hl]
  split
  · rfl
  · rw [← ha]; rfl

/-- A line taken is held under SWEEP, READING, with its READ presented when it is quiet (R116, R117). -/
theorem sweepVisit_of_taken (hl : sweepLine s s.sweep.position = some p)
    (ht : sweepTakes s s.sweep.position p = true) (ha : s.sweep.request = .absent) :
    sweepVisit s = { s with
      sweep := { s.sweep with
        state := .reading, line := some p, timer := none
        request := if sweepQuiet s p then .presented ⟨⟨p, .read⟩, .sweepRead, false⟩ else .absent }
      locks := { s.locks with sweep := some p } } := by
  simp only [sweepVisit, hl, ht, if_true]
  exact sweepReadIfDue_of_reading rfl ha rfl

/-- The expiry with a position left in the pass visits the line there (R114, R116). -/
theorem exec_expiry_of_some {k : Nat} (hw : s.sweep.state = .waiting) (ht : s.sweep.timer = some n)
    (hm : s.mode = .online) (hk : positionFrom s.geom s.sweep.position = some k) :
    exec .sweepIntervalExpiry s = .next (sweepVisit (s.setSweep { s.sweep with position := k })) := by
  rw [exec_sweepIntervalExpiry hw ht hm, sweepExpire_of_some hk]

/-- The expiry in the pool is the expiry on the first line above it (R114). -/
theorem exec_expiry_of_inPool (hw : s.sweep.state = .waiting) (ht : s.sweep.timer = some n) (hm : s.mode = .online)
    (hin : s.geom.inPool (s.sweep.position / 64) = true) (ha : s.geom.abovePool < s.geom.memSize * 64)
    (hu : u = s.setSweep { s.sweep with position := s.geom.abovePool }) :
    exec .sweepIntervalExpiry s = exec .sweepIntervalExpiry u := by
  subst hu
  rw [exec_expiry_of_some hw ht hm (positionFrom_of_inPool hin ha)]
  exact (exec_expiry_of_some (s := s.setSweep { s.sweep with position := s.geom.abovePool }) hw ht hm
    (positionFrom_of_outside s.geom.inPool_abovePool ha)).symm

/-- The expiry past the last line ends the pass, and the sweep waits (R114, R121). -/
theorem exec_expiry_of_past (hw : s.sweep.state = .waiting) (ht : s.sweep.timer = some n) (hm : s.mode = .online)
    (hpast : s.geom.memSize * 64 ≤ skipPool s.geom s.sweep.position) (hu : u = passEnd s) :
    exec .sweepIntervalExpiry s = .next (u.setSweep { u.sweep with timer := some u.sweep.interval }) := by
  rw [exec_sweepIntervalExpiry hw ht hm, sweepExpire_of_none (positionFrom_of_past hpast), ← hu, sweepWait_of_waiting]
  rw [hu]; exact hw

/-! ### Where a line is read -/

theorem sweepLine_of_unbound (h : bindingOf s.remap (n / 64) = none) : sweepLine s n = some ⟨n / 64, n % 64⟩ := by
  simp only [sweepLine, physOfLine, h]

theorem sweepLine_of_binding {b : Binding} (h : bindingOf s.remap (n / 64) = some b) : sweepLine s n =
    if b.stage = .active then some ⟨s.geom.spareBase + b.slot, n % 64⟩ else none := by
  simp only [sweepLine, physOfLine, h]; rfl

/-! ### The end of a line -/

/-- The sweep with its line counted, and the fields of the line cleared (R120). -/
def Sweep.lineCounted (fixed : Bool) (w : Sweep) : Sweep :=
  { w with
    stats := { w.stats with
      linesRead := w.stats.linesRead + 1
      fixed := if fixed then w.stats.fixed + 1 else w.stats.fixed }
    line := none, data := none, retry := none, request := .absent }

/-- The sweep off its line at the line's end (R120). -/
def sweepLeft (fixed : Bool) (s : State) : State := removeHolder .sweep (s.setSweep (s.sweep.lineCounted fixed))

theorem sweepLeft_eq (fixed : Bool) (s : State) :
    sweepLeft fixed s = (removeHolder .sweep s).setSweep (s.sweep.lineCounted fixed) := removeHolder_setSweep _ _ _

theorem sweepLeft_sweep (fixed : Bool) (s : State) : (sweepLeft fixed s).sweep = s.sweep.lineCounted fixed := by
  rw [sweepLeft_eq]; rfl

theorem sweepLeft_mode (fixed : Bool) (s : State) : (sweepLeft fixed s).mode = s.mode := by
  obtain ⟨H, K, L, T, h⟩ := removeHolder_frame .sweep s
  rw [sweepLeft_eq, h]; rfl

/-- The position advances at a line's end, unless it is held (R120, R124). -/
def sweepMoved (s : State) : State :=
  if s.sweep.positionHeld then s.setSweep { s.sweep with positionHeld := false } else advance s

theorem sweepMoved_mode (s : State) : (sweepMoved s).mode = s.mode := by
  unfold sweepMoved; split
  · rfl
  · exact advance_mode s

theorem sweepMoved_stopPending (s : State) : (sweepMoved s).sweep.stopPending = s.sweep.stopPending := by
  unfold sweepMoved; split
  · rfl
  · exact advance_stopPending s

/-- The sweep after the counts of a line's end (R120). -/
def Sweep.ended (fixed : Bool) (w : Sweep) : Sweep := if fixed then countFixed (countRead w) else countRead w

theorem clearLine_ended (fixed : Bool) {w : Sweep} (hr : w.stats.linesRead ≠ BitVec.allOnes 32)
    (hf : w.stats.fixed ≠ BitVec.allOnes 32) : clearLine (w.ended fixed) = w.lineCounted fixed := by
  cases fixed <;> simp [Sweep.ended, countRead, countFixed, riseStat_of_below hr, riseStat_of_below hf, clearLine,
    Sweep.lineCounted]

/-- WAITING after a line's end, or STOPPED when a stop is pending or the bridge FENCED (R120). -/
def sweepRests (s : State) : State :=
  if s.sweep.stopPending = true ∨ s.mode = .fenced then sweepHalt s else sweepWait s

/-- A line's end counts and leaves the line, moves on, and waits or stops (R120). -/
theorem lineEnd_eq (fixed : Bool) (hr : s.sweep.stats.linesRead ≠ BitVec.allOnes 32)
    (hf : s.sweep.stats.fixed ≠ BitVec.allOnes 32) :
    lineEnd fixed s = sweepRests (sweepMoved (sweepLeft fixed s)) := by
  have cleared : (removeHolder .sweep (s.setSweep (s.sweep.ended fixed))).setSweep
      (clearLine (removeHolder .sweep (s.setSweep (s.sweep.ended fixed))).sweep) = sweepLeft fixed s := by
    rw [sweepLeft_eq, removeHolder_setSweep, ← clearLine_ended fixed hr hf]; rfl
  rw [← cleared]
  cases fixed <;> rfl

/-! ### What a read of the line leads to -/

/-- A corrected line counted as fixed and, with log corrected on, reported with CORRECTED after it
(R117, log entry 13). -/
def sweepCorrected (p : PhysLine) (s : State) : State :=
  if s.params.logCorrected then offer (lineEvent .corrected .sweep p none) (healthIncrement p.span false .sweep s)
  else healthIncrement p.span false .sweep s

/-- A line failed for good: counted as failed, and reported with UNCORRECTABLE after it (R119, log entry 13). -/
def sweepLost (p : PhysLine) (used : Nat) (s : State) : State :=
  let h := healthIncrement p.span true .sweep s
  offer (lineEvent .uncorrectable .sweep p (some used))
    (h.setSweep { h.sweep with stats := { h.sweep.stats with failed := h.sweep.stats.failed + 1 } })

/-- A health increment can raise the table-full flag, and changes the sweep in no other field (R82). -/
theorem healthIncrement_sweep (n : Nat) (failed : Bool) (src : Source) (s : State) :
    ∃ b, (healthIncrement n failed src s).sweep = { s.sweep with tableFull := b } := by
  obtain ⟨H, R, E, b, h⟩ := healthIncrement_frame n failed src s
  exact ⟨b, by rw [h]⟩

theorem healthIncrement_line (n : Nat) (failed : Bool) (src : Source) (s : State) :
    (healthIncrement n failed src s).sweep.line = s.sweep.line := by
  obtain ⟨b, h⟩ := healthIncrement_sweep n failed src s
  rw [h]

theorem sweepCorrected_line (p : PhysLine) (s : State) : (sweepCorrected p s).sweep.line = s.sweep.line := by
  unfold sweepCorrected; split <;> exact healthIncrement_line p.span false .sweep s

/-- A corrected line is counted and reported, and its data written back (R117). -/
theorem sweepFixed_eq (data : LineData) (hl : s.sweep.line = some p) : sweepFixed p data s =
    (sweepCorrected p s).setSweep { (sweepCorrected p s).sweep with
      state := .writingBack, data := some data
      request := .presented ⟨⟨p, .write data fullMask false⟩, .sweepWrite, false⟩ } := by
  have model : sweepFixed p data s = presentSweep (.write data fullMask false) .sweepWrite
      ((sweepCorrected p s).setSweep { (sweepCorrected p s).sweep with state := .writingBack, data := some data }) := by
    simp only [sweepFixed, sweepCorrected, healthIncrement_params]
  rw [model, presentSweep_of_line (p := p)]
  · rfl
  · exact (sweepCorrected_line p s).trans hl

theorem sweepPoisoned_eq (h : s.sweep.stats.poisonedFound ≠ BitVec.allOnes 32) : sweepPoisoned s =
    lineEnd false (s.setSweep { s.sweep with
      stats := { s.sweep.stats with poisonedFound := s.sweep.stats.poisonedFound + 1 } }) := by
  rw [sweepPoisoned, countPoisoned_of_below h]

/-- A line failed for good is written back with the poison mark when scrub poison is on, and else ends (R119). -/
theorem sweepFailed_eq {used : Nat} (hl : s.sweep.line = some p) (hu : (s.sweep.retry.map Retry.used).getD 0 = used)
    (hf : s.sweep.stats.failed ≠ BitVec.allOnes 32) : sweepFailed p s =
      if s.params.scrubPoison then (sweepLost p used s).setSweep { (sweepLost p used s).sweep with
        state := .writingBack
        request := .presented ⟨⟨p, .write zeroLine fullMask true⟩, .sweepWrite, false⟩ }
      else lineEnd false (sweepLost p used s) := by
  have below : (healthIncrement p.span true .sweep s).sweep.stats.failed ≠ BitVec.allOnes 32 := by
    obtain ⟨b, h⟩ := healthIncrement_sweep p.span true .sweep s
    rw [h]; exact hf
  have lost : offer (lineEvent .uncorrectable .sweep p (some used)) ((healthIncrement p.span true .sweep s).setSweep
      (countFailed (healthIncrement p.span true .sweep s).sweep)) = sweepLost p used s := by
    rw [countFailed_of_below below]; rfl
  have params : (sweepLost p used s).params = s.params := healthIncrement_params p.span true .sweep s
  have line : (sweepLost p used s).sweep.line = some p := (healthIncrement_line p.span true .sweep s).trans hl
  simp only [sweepFailed, hu, lost, params]
  rw [presentSweep_of_line (p := p)]
  · rfl
  · exact line

theorem sweepRetry_eq (r : Retry) (hl : s.sweep.line = some p) : sweepRetry r s = s.setSweep { s.sweep with
    state := .retrying, retry := some r, request := .presented ⟨⟨p, .read⟩, .sweepRetry, false⟩ } := by
  rw [sweepRetry, presentSweep_of_line (p := p)]
  · rfl
  · exact hl

/-- The TRANSIENT event names the retries used (R118). -/
theorem sweepTransient_eq (p : PhysLine) (hr : s.sweep.retry = some r) :
    sweepTransient p s = offer (lineEvent .transient .sweep p (some r.used)) s := by
  rw [sweepTransient, hr]; rfl

/-- A FAILED retry waits for the next one while retries are left (R118). -/
theorem sweepRetryDone_of_left (p : PhysLine) (data : LineData) (hr : s.sweep.retry = some r) (hl : r.used < r.limit) :
    sweepRetryDone p .failed data s = sweepRetry r s := by
  simp only [sweepRetryDone, hr, if_pos hl]

/-- The last retry FAILED fails the line for good (R118, R119). -/
theorem sweepRetryDone_of_last (p : PhysLine) (data : LineData) (hr : s.sweep.retry = some r) (hl : r.used = r.limit) :
    sweepRetryDone p .failed data s = sweepFailed p s := by
  simp only [sweepRetryDone, hr, if_neg (Nat.not_lt.2 hl.ge)]

/-! ### Whose completion it is -/

/-- The state in which a completion of the sweep goes on: the tag FREE, and the request gone (R70). -/
def sweepAnswered (d : PortTag) (s : State) : State := (setTag d .free s).setSweep { s.sweep with request := .absent }

/-- A response to the sweep's READ that reports about its data completes the first READ of the line (R117). -/
theorem exec_sweepRead {re : Bool} {data : LineData} (ht : s.port.tags[d] = .inUse ⟨⟨p, .read⟩, .sweepRead, re⟩)
    (hc : readResult c = some res) (hu : sweepReadDone p res data (sweepAnswered d s) = u) (hset : settled u = true) :
    exec (.downstreamResponse d c data) s = .next u := by
  refine exec_response_of_settled ht (Eq.trans ?_ hu) hset
  simp only [completeIssue, hc, readCompletes, sweepReadCompletes, reduceCtorEq, if_false]
  rfl

/-- A response to the sweep's retry that reports about its data completes that retry (R118). -/
theorem exec_sweepRetry {re : Bool} {data : LineData} (ht : s.port.tags[d] = .inUse ⟨⟨p, .read⟩, .sweepRetry, re⟩)
    (hc : readResult c = some res) (hu : sweepRetryDone p res data (sweepAnswered d s) = u) (hset : settled u = true) :
    exec (.downstreamResponse d c data) s = .next u := by
  refine exec_response_of_settled ht (Eq.trans ?_ hu) hset
  simp only [completeIssue, hc, readCompletes, sweepReadCompletes, if_true]
  rfl

/-- DONE for the sweep's writeback ends the line, with POISON_WRITTEN when it carried the mark (R119, R120). -/
theorem exec_sweepWrite {x : LineData} {m : ByteMask} {mark re : Bool} (data : LineData)
    (ht : s.port.tags[d] = .inUse ⟨⟨p, .write x m mark⟩, .sweepWrite, re⟩)
    (hu : u = if mark then lineEnd false (offer (lineEvent .poisonWritten .sweep p none) (sweepAnswered d s))
      else lineEnd true (sweepAnswered d s)) (hset : settled u = true) :
    exec (.downstreamResponse d .done data) s = .next u := by
  refine exec_response_of_settled ht (Eq.trans ?_ hu.symm) hset
  cases mark <;> rfl

/-! ### The statement -/

/-- Settles O54. A position outside the pool is visited, a line's end is its count, its move and its rest, and each
completion leads to the state of its condition. -/
theorem sweepTakesOrSkips : Obligations.SweepTakesOrSkips := by
  refine fun s => ⟨fun n hw ht hm hpos hout => ?_, fun n hw ht hm hin above habove => ?_,
    fun p hs ha hl hh hq => ?_, fun line => ⟨fun hn => ?_, fun i b hb hn hu => ?_⟩,
    fun next above hnext habove => ?_, fun fast hfast => ?_, fun fixed moved hr hf left hleft hmoved => ?_,
    fun d p re data hl hfail hpois freed hfreed => ?_⟩
  · have visit : exec .sweepIntervalExpiry s = .next (sweepVisit s) :=
      exec_expiry_of_some hw ht hm (positionFrom_of_outside hout hpos)
    rw [visit]
    refine ⟨fun hskip hcond => ?_, fun p hl hlock hheld ha quiet hquiet => ?_⟩
    · have skip : sweepVisit s = sweepSkip s := sweepVisit_of_skipped (hcond.imp_right fun ⟨p, hl, ht⟩ =>
        ⟨p, hl, sweepTakes_eq_false_iff.2 ht⟩)
      rw [skip]
      refine ⟨fun hnext hnout => ?_, fun v hv => ?_⟩
      · have next := advance_of_some (s := s.setSweep { s.sweep with stats :=
          { s.sweep.stats with skipped := s.sweep.stats.skipped + 1 } }) (positionFrom_of_outside hnout hnext)
        rw [sweepSkip_of_waiting hw hskip next.symm]; rfl
      · rw [sweepSkip_of_waiting hw hskip hv]; rfl
    · have takes : sweepTakes s s.sweep.position p = true := by
        refine Bool.of_not_eq_false fun hf => ?_
        rcases sweepTakes_eq_false_iff.1 hf with h | ⟨t, ht, r, hr, he⟩
        · exact Bool.eq_false_iff.1 hlock h
        · exact hheld t ht r hr he
      rw [sweepVisit_of_taken hl takes ha, hquiet]; rfl
  · subst habove
    exact ⟨fun hroom => exec_expiry_of_inPool hw ht hm hin hroom rfl,
      fun hpast v hv => exec_expiry_of_past hw ht hm (by rw [skipPool_of_inPool hin]; exact hpast) hv⟩
  · have quiet : sweepQuiet s p = true := by simp [sweepQuiet, hh, hq]
    refine congrArg Host.Outcome.next ?_
    rw [sweepReadIfDue_of_reading hs ha hl, quiet]; rfl
  · exact sweepLine_of_unbound (bindingOf_eq_none_iff.2 hn)
  · exact sweepLine_of_binding (bindingOf_eq_some hb hn hu)
  · subst hnext habove
    exact ⟨fun hout hlt => advance_of_some (positionFrom_of_outside hout hlt),
      fun hin hlt => advance_of_some (positionFrom_of_inPool hin hlt),
      fun hpast => advance_of_none (positionFrom_of_past hpast)⟩
  · have accel : accelerates s.params s.sweep = fast := by rw [hfast, accelerates, Bool.decide_and]
    rw [← accel]; rfl
  · have hleft : left = sweepLeft fixed s := hleft
    have hmoved : moved = sweepMoved (sweepLeft fixed s) := by
      have held : (sweepLeft fixed s).sweep.positionHeld = s.sweep.positionHeld := by rw [sweepLeft_sweep]; rfl
      rw [hmoved, hleft, sweepMoved, held]; rfl
    have rests : sweepRests moved =
        if s.sweep.stopPending = true ∨ s.mode = .fenced then sweepHalt moved else sweepWait moved := by
      rw [sweepRests, hmoved, sweepMoved_mode, sweepMoved_stopPending, sweepLeft_mode, sweepLeft_sweep]; rfl
    rw [lineEnd_eq fixed hr hf, ← hmoved, rests]; rfl
  · have hfreed : freed = sweepAnswered d s := hfreed
    subst hfreed
    intro corrected found retried lost
    have fixed (t : State) (h : t.sweep.line = some p) (hp : t.params = s.params) :
        sweepFixed p data t = corrected t := by
      rw [sweepFixed_eq data h, sweepCorrected, hp]; rfl
    have poisoned : sweepPoisoned (sweepAnswered d s) = found := sweepPoisoned_eq (s := sweepAnswered d s) hpois
    have retry (r : Retry) : sweepRetry r (sweepAnswered d s) = retried r :=
      sweepRetry_eq (s := sweepAnswered d s) r hl
    have failed {used : Nat} (hu : (s.sweep.retry.map Retry.used).getD 0 = used) :
        sweepFailed p (sweepAnswered d s) = lost used := by
      rw [sweepFailed_eq (s := sweepAnswered d s) hl hu hfail]
      rfl
    refine ⟨fun _ hr ht => ?_, fun r _ hr ht told htold => ?_, fun x m mark _ ht u hu hset => ?_⟩
    · have ends (res : ReadResult) {c : Condition} (hc : readResult c = some res) {t : State}
          (done : sweepReadDone p res data (sweepAnswered d s) = t) (u : State) (hu : u = t) :=
        exec_sweepRead ht hc (done.trans hu.symm)
      exact ⟨ends .clean rfl rfl, ends .fixed rfl (fixed _ hl rfl), ends .poisoned rfl poisoned,
        fun h0 => ends .failed rfl ((if_pos h0).trans (failed (by rw [hr]; rfl))),
        fun h0 => ends .failed rfl ((if_neg h0).trans (retry _))⟩
    · have ends (res : ReadResult) {c : Condition} (hc : readResult c = some res) {t : State}
          (done : sweepRetryDone p res data (sweepAnswered d s) = t) (u : State) (hu : u = t) :=
        exec_sweepRetry ht hc (done.trans hu.symm)
      have recovered : sweepTransient p (sweepAnswered d s) = told :=
        (sweepTransient_eq (s := sweepAnswered d s) p hr).trans htold.symm
      refine ⟨ends .clean rfl ?_, ends .fixed rfl ?_, ends .poisoned rfl poisoned, fun hlt => ends .failed rfl ?_,
        fun hlt => ends .failed rfl ?_⟩
      · exact congrArg (lineEnd false) recovered
      · exact (congrArg (sweepFixed p data) recovered).trans (fixed told (by rw [htold]; exact hl) (by rw [htold]; rfl))
      · exact (sweepRetryDone_of_left (s := sweepAnswered d s) p data hr hlt).trans (retry r)
      · exact (sweepRetryDone_of_last (s := sweepAnswered d s) p data hr hlt).trans (failed (by rw [hr]; rfl))
    · exact exec_sweepWrite data ht hu hset

end Sys2Proof.Machine

namespace Sys2Proof.Machine

/-! ## Records and headers as bytes

Every field of a position stands between the bytes before it and the bytes behind it; a field that fits its bytes
reads back as itself. -/

variable {a b c : List Byte} {k n pos : Nat} {r : JRecord} {h : Header}

/-! ### Fields -/

/-- A field is the number of the bytes that stand at its place. -/
theorem field_of_append (ha : a.length = k) (hb : b.length = n) : field (a ++ (b ++ c)) k n = leNat b := by
  rw [field, List.drop_left' ha, List.take_left' hb]

/-- A number that fits its bytes is read back from its place. -/
theorem field_leBytes (ha : a.length = k) (hn : pos < 256 ^ n) : field (a ++ (leBytes n pos ++ c)) k n = pos :=
  (field_of_append ha (leBytes_length n pos)).trans (leNat_leBytes n pos hn)

theorem leBytes_one (n : Nat) : leBytes 1 n = [byteOf n] := rfl

/-! ### Records -/

/-- The poisoned-line byte of a record: 0 but for ASSIGN (Table 11-10). -/
def JRecord.poisonedByte (r : JRecord) : Byte := if r.kind = .assignRec then byteOf r.poisoned else 0

/-- A record's bytes field by field (Table 11-10). -/
theorem recordBytes_eq (pos : Nat) (r : JRecord) : ∃ crc, recordBytes pos r =
    [kindByte r.kind] ++ (leBytes 4 pos ++ (leBytes 3 r.span ++ (leBytes 1 r.slot ++
      ([r.poisonedByte] ++ ([0, 0, 0, 0] ++ crc))))) :=
  ⟨_, by simp only [recordBytes, withCrc, List.append_assoc, List.cons_append, List.nil_append, leBytes_one]; rfl⟩

theorem recordBytes_crcOk (pos : Nat) (r : JRecord) :
    crcOk (recordBytes pos r) = true ∧ (recordBytes pos r).length = 16 :=
  crcOk_withCrc _ (by simp)

theorem kindOfByte_kindByte (k : RecordKind) : kindOfByte (kindByte k) = some k := by cases k <;> rfl

/-- A record's bytes are never all FFh: its kind byte is none. -/
theorem recordBytes_not_empty (pos : Nat) (r : JRecord) : isEmptyPosition (recordBytes pos r) = false := by
  obtain ⟨crc, hc⟩ := recordBytes_eq pos r
  have : (kindByte r.kind == 0xFF) = false := by cases r.kind <;> rfl
  rw [hc, isEmptyPosition, List.all_append, List.all_cons, this]; rfl

/-- The sequence field of a record is its position (R128). -/
theorem recordBytes_position (r : JRecord) (hp : pos < 256) : field (recordBytes pos r) 1 4 = pos := by
  obtain ⟨crc, hc⟩ := recordBytes_eq pos r
  rw [hc]; exact field_leBytes rfl (by omega)

/-- What a record's bytes are taken for: at its position the record of their fields, elsewhere a torn one (R128). -/
theorem goodRecord_recordBytes (q : Nat) (r : JRecord) (hp : pos < 256) : goodRecord q (recordBytes pos r) =
    if pos = q then
      some { kind := r.kind, span := field (recordBytes pos r) 5 3, slot := field (recordBytes pos r) 8 1
             poisoned := if r.kind = .assignRec then field (recordBytes pos r) 9 1 else 0 }
    else none := by
  have kind : kindOfByte ((recordBytes pos r).headD 0) = some r.kind := kindOfByte_kindByte r.kind
  simp only [goodRecord, kind, recordBytes_crcOk, recordBytes_position r hp, true_and]

/-- The fields of a record in range are read back (Table 11-10). -/
theorem recordBytes_fields (pos : Nat) (hs : r.span < 4194304) (ht : r.slot < 256) (hp : r.poisoned < 256)
    (h0 : r.kind ≠ .assignRec → r.poisoned = 0) :
    field (recordBytes pos r) 5 3 = r.span ∧ field (recordBytes pos r) 8 1 = r.slot ∧
      (if r.kind = .assignRec then field (recordBytes pos r) 9 1 else 0) = r.poisoned := by
  obtain ⟨crc, hc⟩ := recordBytes_eq pos r
  rw [hc]
  refine ⟨?_, ?_, ?_⟩
  · rw [← List.append_assoc]
    exact field_leBytes (by simp) (by omega)
  · rw [← List.append_assoc, ← List.append_assoc]
    exact field_leBytes (by simp) (by omega)
  · split
    · rename_i hk
      rw [JRecord.poisonedByte, if_pos hk, ← leBytes_one, ← List.append_assoc, ← List.append_assoc, ← List.append_assoc]
      exact field_leBytes (by simp) (by omega)
    · rename_i hk; exact (h0 hk).symm

/-! ### Headers -/

/-- A header's bytes field by field (Table 11-10). -/
theorem headerBytes_eq (h : Header) : ∃ crc, headerBytes h =
    [0x01] ++ (leBytes 4 h.epoch ++ (leBytes 3 h.geom.memSize ++ (leBytes 3 h.geom.spareBase ++
      (leBytes 1 h.geom.spareCount ++ ([0, 0] ++ crc))))) :=
  ⟨_, by simp only [headerBytes, withCrc, List.append_assoc, List.cons_append, List.nil_append, leBytes_one]; rfl⟩

theorem headerBytes_crcOk (h : Header) : crcOk (headerBytes h) = true ∧ (headerBytes h).length = 16 :=
  crcOk_withCrc _ (by simp)

theorem headerBytes_not_empty (h : Header) : isEmptyPosition (headerBytes h) = false := by
  obtain ⟨crc, hc⟩ := headerBytes_eq h
  rw [hc]; rfl

/-- A valid geometry fits the bytes of its fields (R11, Table 11-10). -/
theorem Geometry.fields_of_valid {g : Geometry} (hg : g.valid = true) :
    g.memSize < 256 ^ 3 ∧ g.spareBase < 256 ^ 3 ∧ g.spareCount < 256 ^ 1 := by
  simp only [Geometry.valid, Bool.and_eq_true, decide_eq_true_eq] at hg
  omega

/-- The fields of a header in range are read back (Table 11-10). -/
theorem headerFields_headerBytes (he : h.epoch ≤ 4294967295) (hg : h.geom.valid = true) :
    headerFields (headerBytes h) = h := by
  obtain ⟨crc, hc⟩ := headerBytes_eq h
  obtain ⟨hm, hb, hn⟩ := Geometry.fields_of_valid hg
  have epoch : field (headerBytes h) 1 4 = h.epoch := by
    rw [hc]; exact field_leBytes rfl (by omega)
  have memSize : field (headerBytes h) 5 3 = h.geom.memSize := by
    rw [hc, ← List.append_assoc]; exact field_leBytes (by simp) hm
  have spareBase : field (headerBytes h) 8 3 = h.geom.spareBase := by
    rw [hc, ← List.append_assoc, ← List.append_assoc]; exact field_leBytes (by simp) hb
  have spareCount : field (headerBytes h) 11 1 = h.geom.spareCount := by
    rw [hc, ← List.append_assoc, ← List.append_assoc, ← List.append_assoc]; exact field_leBytes (by simp) hn
  rw [headerFields, epoch, memSize, spareBase, spareCount]

theorem validHeader_headerBytes (h1 : 1 ≤ h.epoch) (he : h.epoch ≤ 4294967295) (hg : h.geom.valid = true) :
    validHeader (headerBytes h) = some h := by
  have kind : (headerBytes h).headD 0 = 0x01 := rfl
  simp only [validHeader, kind, headerBytes_crcOk, headerFields_headerBytes he hg, h1, hg, and_self, if_true]

/-- Settles O59. The position decides what a record's bytes are taken for, and its fields are read back; a header's
bytes pass every test of a valid header. -/
theorem recordsReadBack : Obligations.RecordsReadBack := by
  refine ⟨fun pos r hp hs ht hq h0 => ⟨(recordBytes_crcOk pos r).2, recordBytes_not_empty pos r, ?_, fun q hne _ => ?_⟩,
    fun h h1 he hg => ⟨(headerBytes_crcOk h).2, headerBytes_not_empty h, validHeader_headerBytes h1 he hg⟩⟩
  · obtain ⟨span, slot, poisoned⟩ := recordBytes_fields pos hs ht hq h0
    rw [goodRecord_recordBytes pos r hp, if_pos rfl, span, slot, poisoned]
  · rw [goodRecord_recordBytes q r hp, if_neg hne.symm]

end Sys2Proof.Machine

namespace Sys2Proof.Machine

/-! ## The management link's commands for the geometry and the store

Each command is taken on a free link and runs its body; a request that an IDLE controller with an empty list gets is
served in the same step. -/

variable {s t u : State} {g : Geometry} {q : JRequest} {ps : List Byte}

/-! ### A request to the controller -/

/-- What serving does to the request is all that follows of it, for an IDLE controller with an empty list (R131). -/
theorem settle_enqueue_of_idle (hi : t.journal.task = .idle) (hr : t.journal.requests = [])
    (hu : serveHead (t.setJournal { t.journal with requests := [q] }) = u) (hs : settled u = true) :
    settle (enqueueRequest q t) = u := by
  have queued : enqueueRequest q t = t.setJournal { t.journal with requests := [q] } := by
    rw [enqueueRequest, hr]; rfl
  rw [queued]
  exact settle_of_serveHead (by simp [serveDue, hi]) hu hs

/-- A controller at work leaves the request in its list (R131). -/
theorem settle_enqueue_of_settled
    (hu : u = { t with journal := { t.journal with requests := t.journal.requests ++ [q] } })
    (hs : settled u = true) : settle (enqueueRequest q t) = u := by
  have queued : enqueueRequest q t = u := hu.symm
  rw [queued, settle_of_settled hs]

/-! ### SET_GEOMETRY -/

theorem setGeometry_eq (hb : s.link.busy = false) (hm : s.mode ≠ .startup) (hl : ps.length = 7) :
    exec (.setGeometry ps) s = .next (setGeometryBody (geometryOf ps) (takeFrame s)) :=
  congrArg Host.Outcome.next (takeCommand_read _ hb hm (by simpa using hl) (by omega))

/-- The tables are in use while an entry is bound, a span is queued or a copy is under way (R142). -/
theorem tablesInUse_iff : tablesInUse s = true ↔
    (∃ i : Fin 128, s.remap[i] ≠ none) ∨ s.retire ≠ [] ∨ s.copy.state ≠ .idle := by
  have bound : (lowestIndex Option.isSome s.remap).isSome = true ↔ ∃ i : Fin 128, s.remap[i] ≠ none := by
    rw [← not_iff_not, Bool.not_eq_true, Option.isSome_eq_false_iff, Option.isNone_iff_eq_none, lowestIndex_eq_none_iff]
    simp
  simp only [tablesInUse, Bool.or_eq_true, bound, or_assoc]
  simp

theorem replaceGeometry_eq (g : Geometry) (s : State) : replaceGeometry g s = { s with
    geom := g
    health := if s.geom = g then s.health else emptyHealth
    sweep := { s.sweep with
      position := firstPosition g, positionHeld := s.sweep.positionHeld || lineInProgress s.sweep } } := by
  unfold replaceGeometry; split <;> rfl

theorem setGeometryBody_of_invalid (hg : g.valid = false) : setGeometryBody g s = answer .badParam [] s := by
  simp only [setGeometryBody, hg]; rfl

theorem setGeometryBody_of_use (hg : g.valid = true) (hu : tablesInUse s = true) :
    setGeometryBody g s = answer .refusedInUse [] s := by
  simp only [setGeometryBody, hg, hu]; rfl

theorem setGeometryBody_of_free (hg : g.valid = true) (hu : tablesInUse s = false) : setGeometryBody g s =
    if s.journal.store = .online then settle (enqueueRequest .geometry (replaceGeometry g s))
    else answer .ok [] (replaceGeometry g s) := by
  simp only [setGeometryBody, hg, hu, replaceGeometry_eq]; rfl

/-- A table with every entry FREE has an empty snapshot (R133). -/
theorem snapshotOf_of_free {r : Remap} (h : ∀ i : Fin 128, r[i] = none) : snapshotOf r = [] := by
  have unbound : r.toList.filterMap id = [] := List.eq_nil_iff_forall_not_mem.2 fun b hb => by
    obtain ⟨i, hi⟩ := mem_bindings_iff.1 hb
    simp [h i] at hi
  simp only [snapshotOf, unbound]; rfl

/-- Settles O30. The geometry and the tables decide the answer; with the store ONLINE the request that the command
makes is served at once by a compaction of the empty table. -/
theorem geometryIsSet : Obligations.GeometryIsSet := by
  intro s ps hb hm hl g u
  rw [setGeometry_eq hb hm hl]
  refine ⟨fun hg => congrArg Host.Outcome.next (setGeometryBody_of_invalid hg),
    fun hg => ⟨fun hu => ?_, fun hr hq hc => ?_⟩⟩
  · exact congrArg Host.Outcome.next (setGeometryBody_of_use hg (tablesInUse_iff.2 hu))
  · have free : tablesInUse (takeFrame s) = false := by
      simp [Bool.eq_false_iff, tablesInUse_iff, takeFrame, hr, hq, hc]
    rw [setGeometryBody_of_free hg free, replaceGeometry_eq]
    refine ⟨fun ho => congrArg Host.Outcome.next (if_neg ho), fun ho hi hn v hv hs => ?_⟩
    rw [if_pos (show (takeFrame s).journal.store = .online from ho)]
    refine congrArg Host.Outcome.next (settle_enqueue_of_idle hi hn ?_ hs)
    rw [hv, ← snapshotOf_of_free hr]
    exact if_pos ho

/-! ### STORE_DETACH and STORE_ATTACH -/

theorem storeDetach_eq (hb : s.link.busy = false) (hm : s.mode ≠ .startup) :
    exec (.storeDetach []) s = .next (storeDetachBody (takeFrame s)) :=
  congrArg Host.Outcome.next (takeCommand_read _ hb hm rfl (Nat.zero_le _))

theorem storeAttach_eq (hb : s.link.busy = false) (hm : s.mode ≠ .startup) :
    exec (.storeAttach []) s = .next (storeAttachBody (takeFrame s)) :=
  congrArg Host.Outcome.next (takeCommand_read _ hb hm rfl (Nat.zero_le _))

theorem storeDetachBody_of_online (h : s.journal.store = .online) :
    storeDetachBody s = settle (enqueueRequest .detach s) := by
  simp only [storeDetachBody, h]

theorem rawOpen_iff : rawOpen s = true ↔ s.journal.task = .raw := by simp [rawOpen]

theorem storeAttachBody_of_raw (h : s.journal.task = .raw) : storeAttachBody s = answer .sessionOpen [] s :=
  if_pos (rawOpen_iff.2 h)

theorem storeAttachBody_of_not_raw (h : s.journal.task ≠ .raw) : storeAttachBody s =
    if s.journal.store = .offline then settle (enqueueRequest .attach s) else answer .refusedState [] s :=
  if_neg (mt rawOpen_iff.1 h)

/-- A detach served with the store ONLINE takes it OFFLINE and is answered (R24, R140). -/
theorem serveHead_of_detach {rest : List JRequest} (hr : s.journal.requests = .detach :: rest)
    (ho : s.journal.store = .online) : serveHead s = { s with
      journal := { s.journal with requests := rest, store := .offline }
      remap := journalFlags false s.remap, link := replied .ok [] } := by
  simp only [serveHead, hr, ho, if_true, serveCommand, dropRequest, storeOffline, setStore, State.setRemap_journal,
    State.setJournal_journal, List.tail_cons]
  rfl

/-- Settles O32. The store's state decides each command; an IDLE controller serves the request in the same step, and
any other leaves it in its list. -/
theorem storeIsDetachedAndAttached : Obligations.StoreIsDetachedAndAttached := by
  intro s hb hm
  rw [storeDetach_eq hb hm, storeAttach_eq hb hm]
  refine ⟨fun h => ?_, fun h => ?_, fun ho hi hr u hu hs => ?_, fun ho _ u hu hs => ?_, fun h => ?_, fun h ho => ?_,
    fun ho hi hr u hu hs => ?_⟩
  · simp only [storeDetachBody, show (takeFrame s).journal.store = .disabled from h]; rfl
  · simp only [storeDetachBody, show (takeFrame s).journal.store = .offline from h]; rfl
  · rw [storeDetachBody_of_online (s := takeFrame s) ho]
    refine congrArg Host.Outcome.next (settle_enqueue_of_idle hi hr ?_ hs)
    exact (serveHead_of_detach (s := (takeFrame s).setJournal { s.journal with requests := [.detach] })
      (congrArg (List.cons _) hr.symm) ho).trans hu.symm
  · rw [storeDetachBody_of_online (s := takeFrame s) ho, settle_enqueue_of_settled (u := u) hu hs]
  · rw [storeAttachBody_of_raw (s := takeFrame s) h]; rfl
  · rw [storeAttachBody_of_not_raw (s := takeFrame s) h]
    exact congrArg Host.Outcome.next (if_neg ho)
  · rw [storeAttachBody_of_not_raw (s := takeFrame s) (by show s.journal.task ≠ _; simp [hi])]
    refine congrArg Host.Outcome.next ((if_pos ho).trans (settle_enqueue_of_idle hi hr ?_ hs))
    exact hu.symm

/-! ### RAW_SHIFT -/

theorem rawShift_eq {flags : Byte} {bytes : List Byte} (hb : s.link.busy = false) (hm : s.mode ≠ .startup)
    (hl : bytes.length ≤ 16) :
    exec (.rawShift (flags :: bytes)) s = .next (rawShiftBody (flags :: bytes) (takeFrame s)) :=
  congrArg Host.Outcome.next (takeCommand_read _ hb hm (by simp; omega) (by simp; omega))

/-- RAW_SHIFT's checks, in order, before its bytes are handed to the store link (R143). -/
theorem rawShiftBody_eq (flags : Byte) (bytes : List Byte) (s : State) : rawShiftBody (flags :: bytes) s =
    if s.journal.store ≠ .offline then answer .refusedState [] s
    else if flags.getLsbD 0 = true ∧ s.journal.task = .raw then answer .sessionOpen [] s
    else if flags.getLsbD 0 = false ∧ s.journal.task ≠ .raw then answer .noSession [] s
    else if bytes = [] then rawShifted (flags.getLsbD 1) [] (setTask .raw s)
    else (setTask .raw s).setLink { s.link with raw := some ⟨bytes, flags.getLsbD 1⟩ } := by
  have store : (s.journal.store != .offline) = decide (s.journal.store ≠ .offline) := by
    cases s.journal.store <;> rfl
  simp only [rawShiftBody, openFlag, closeFlag, List.headD_cons, List.drop_one, List.tail_cons, store,
    decide_eq_true_eq, Bool.and_eq_true, Bool.not_eq_true', rawOpen_iff, Bool.eq_false_iff (b := rawOpen s), ne_eq]
  rfl

/-- The last byte's completion answers with the bytes sampled, and CLOSE makes the controller IDLE (R143). -/
theorem exec_rawShiftDone {r : RawShift} {sampled : List Byte} (hr : s.link.raw = some r)
    (hl : sampled.length = r.bytes.length) : exec (.rawShiftDone sampled) s =
      .next (settle (answer .ok sampled (setTask (if r.close then .idle else s.journal.task) s))) := by
  have shifted : rawShifted r.close sampled s =
      settle (answer .ok sampled (setTask (if r.close then .idle else s.journal.task) s)) := by
    unfold rawShifted; cases r.close <;> rfl
  simp only [exec, execRawShiftDone, hr, if_pos hl, shifted]

/-- Settles O33. The checks come in order; the completion answers, and leaves the state it names. -/
theorem rawSessionsShiftBytes : Obligations.RawSessionsShiftBytes := by
  refine fun s flags bytes => ⟨fun hb hm hl => ?_, fun r sampled hr hl u hu hs => ?_⟩
  · rw [rawShift_eq hb hm hl, rawShiftBody_eq]
    have frame : (takeFrame s).journal = s.journal := rfl
    rw [frame]
    refine ⟨fun ho => ?_, fun ho hf ht => ?_, fun ho hf ht => ?_, fun ho hf hn => ?_⟩
    · rw [if_pos ho]; rfl
    · rw [if_neg (not_not.2 ho), if_pos ⟨hf, ht⟩]; rfl
    · rw [if_neg (not_not.2 ho), if_neg (fun h => ht h.2), if_pos ⟨hf, ht⟩]; rfl
    · rw [if_neg (not_not.2 ho), if_neg (fun h => hf.1 h.1 h.2),
        if_neg (fun h => Bool.false_ne_true (h.1.symm.trans (hf.2 h.2))), if_neg hn]
      rfl
  · rw [exec_rawShiftDone hr hl]
    exact congrArg Host.Outcome.next ((congrArg settle hu.symm).trans (settle_of_settled hs))

end Sys2Proof.Machine

namespace Sys2Proof.Machine

/-! ## The request list served

What a report tells the copy engine (`reportRecord`), by the record's kind; then the head of the list by its kind and
the store's state, and an append verified. -/

variable {s t u : State} {j : CopyJob} {b : Binding} {r : JRecord} {rest : List JRequest} {written : Bool}

/-- A command that settles a state in which nothing is due answers that state. -/
theorem exec_of_settled {c : Instr} (hx : exec c s = .next (settle t)) (hu : u = t) (hs : settled u = true) :
    exec c s = .next u := by
  rw [hx, ← hu, settle_of_settled hs]

/-! ### A record reported -/

/-- The CANCEL record reported lets the abort end (R109). -/
theorem reportRecord_of_cancel (hk : r.kind = .cancelRec) : reportRecord r written t =
    { t with
      journal := { t.journal with requests := t.journal.requests.tail }
      copy := { t.copy with cancelDone := true } } := by
  rw [reportRecord, hk]; rfl

/-- The ASSIGN record reported makes the entry ACTIVE, and the copy engine IDLE (R18, R87, R105). -/
theorem reportRecord_of_assign (hk : r.kind = .assignRec) (hj : t.copy.job = some j) (hb : t.remap[j.entry] = some b)
    (ha : b.stage ≠ .active) : reportRecord r written t =
      { offer (spanEvent .retireDone .copy j.span (some j.slot) (some b.poisoned)) t with
        journal := { t.journal with requests := t.journal.requests.tail }
        remap := t.remap.set j.entry (some { b with stage := .active, journaled := written })
        health := removeRetired j.span t.health
        copy := idleCopy t.copy.exhausted } := by
  have job : (dropRequest t).copy.job = some j := hj
  have entry : (dropRequest t).remap[j.entry] = some b := hb
  simp only [reportRecord, hk, recordReported, assignReported, job, jobPoisoned_eq job hb, modifyEntry, entry,
    if_neg ha]
  rfl

/-- The BEGIN record reported lets the copy take its line, and the READ of a quiet line is all that follows (R97,
R98). -/
theorem settle_reportRecord_of_begin (hk : r.kind = .beginRec) (hs : t.copy.state = .beginning)
    (hj : t.copy.job = some j) (hw : hostWriteAt t ⟨j.span, t.copy.cursor⟩ = false)
    (hl : t.locks.sweep ≠ some ⟨j.span, t.copy.cursor⟩)
    (hu : u = { t with
      journal := { t.journal with requests := t.journal.requests.tail }
      copy := { t.copy with
        state := .lineRead, request := .presented ⟨⟨⟨j.span, t.copy.cursor⟩, .read⟩, .copyRead, false⟩ }
      locks := { t.locks with copy := some ⟨j.span, t.copy.cursor⟩ } }) (hset : settled u = true) :
    settle (reportRecord r written t) = u := by
  have state : (dropRequest t).copy.state = .beginning := hs
  rw [reportRecord, hk, recordReported, beginReported, state]
  refine settle_takeLine (s := dropRequest t) (j := j) hj rfl (hu.trans ?_) hset
  rw [if_pos ⟨hw, hl⟩]; rfl

/-! ### The head served -/

/-- JOURNAL_SERVE_REQUEST serves the head of an IDLE controller's list (R131). -/
theorem exec_journalServeRequest {q : JRequest} (hi : s.journal.task = .idle) (hr : s.journal.requests = q :: rest) :
    exec .journalServeRequest s = .next (settle (serveHead s)) :=
  congrArg Host.Outcome.next (if_pos (by simp [serveDue, hi, hr]))

theorem serveHead_of_skipped (hr : s.journal.requests = .record r :: rest) (ho : s.journal.store ≠ .online) :
    serveHead s = reportRecord r false s := by
  simp only [serveHead, hr, if_neg ho]

theorem serveHead_of_room (hr : s.journal.requests = .record r :: rest) (ho : s.journal.store = .online)
    (hn : s.journal.next < 256) : serveHead s = setTask .append s := by
  simp only [serveHead, hr, if_pos ho, if_pos hn]

theorem serveHead_of_full (hr : s.journal.requests = .record r :: rest) (ho : s.journal.store = .online)
    (hn : 256 ≤ s.journal.next) : serveHead s = beginCompact .append (spareHalf s.journal) s := by
  simp only [serveHead, hr, if_pos ho, if_neg (Nat.not_lt.2 hn)]

theorem serveHead_of_geometry (hr : s.journal.requests = .geometry :: rest) : serveHead s =
    if s.journal.store = .online then beginCompact .geometry (spareHalf s.journal) s else serveCommand s := by
  simp only [serveHead, hr]

theorem serveHead_of_attach (hr : s.journal.requests = .attach :: rest) : serveHead s = setTask .attachReady s := by
  simp only [serveHead, hr]

theorem serveHead_of_detach_offline (hr : s.journal.requests = .detach :: rest) (ho : s.journal.store ≠ .online) :
    serveHead s = serveCommand s := by
  simp only [serveHead, hr, if_neg ho]

/-- A management request served leaves the list, and its command is answered OK. -/
theorem serveCommand_eq {q : JRequest} (hr : s.journal.requests = q :: rest) : serveCommand s =
    { s with journal := { s.journal with requests := rest }, link := replied .ok [] } := by
  simp only [serveCommand, dropRequest, hr, List.tail_cons]; rfl

/-- Settles O55. The head's kind and the store's state name what serving comes to; after a BEGIN skipped the READ of
the line follows, and in every other case nothing. -/
theorem requestsAreServed : Obligations.RequestsAreServed := by
  intro s rest hi compacts taken
  have served {q : JRequest} (hr : s.journal.requests = q :: rest) {t : State} (ht : serveHead s = t) (u : State)
      (hu : u = t) (hs : settled u = true) : exec .journalServeRequest s = .next u :=
    exec_of_settled (exec_journalServeRequest hi hr) (hu.trans ht.symm) hs
  have compact (c : CompactCause) : beginCompact c (spareHalf s.journal) s = compacts c := by
    rw [beginCompact, spareHalf_eq]; rfl
  refine ⟨fun r hr ho => ⟨fun hn => served hr (serveHead_of_room hr ho hn), fun hn => served hr ?_⟩,
    fun r j b hr ho hj hb => ⟨fun hk => served hr ?_, fun hk ha => served hr ?_, fun hk hc _ hw hl u hu hs => ?_⟩,
    fun hr => ⟨fun ho => served hr ?_, fun ho => served hr ?_⟩,
    fun hr => ⟨fun ho => served hr (serveHead_of_detach hr ho), fun ho => served hr ?_⟩,
    fun hr => served hr (serveHead_of_attach hr)⟩
  · rw [serveHead_of_full hr ho hn, compact]
  · rw [serveHead_of_skipped hr ho, reportRecord_of_cancel hk, hr]; rfl
  · rw [serveHead_of_skipped hr ho, reportRecord_of_assign hk hj hb (by simp [ha]), hr]; rfl
  · rw [exec_journalServeRequest hi hr, serveHead_of_skipped hr ho,
      settle_reportRecord_of_begin hk hc hj hw hl (by rw [hu, hr]; rfl) hs]
  · rw [serveHead_of_geometry hr, if_neg ho, serveCommand_eq hr]
  · rw [serveHead_of_geometry hr, if_pos ho, compact]
  · rw [serveHead_of_detach_offline hr ho, serveCommand_eq hr]

end Sys2Proof.Machine

namespace Sys2Proof.Machine

/-! ## Appends verified -/

variable {s t u : State} {j : CopyJob} {b : Binding} {r : JRecord} {rest : List JRequest}

/-- A page program read back as driven is verified (R127). -/
theorem exec_pageProgramDone {half : Option HalfId} {pos : Nat} {bytes : List Byte}
    (hp : programmed s = some (half, pos, bytes)) : exec (.pageProgramDone bytes) s = .next (settle (verified s)) := by
  simp only [exec, execPageProgramDone, hp, if_true]

/-- An append programs the record at the head of the list, at the live half's next position (R132). -/
theorem programmed_of_append (ht : s.journal.task = .append) (hr : s.journal.requests = .record r :: rest) :
    programmed s = some (s.journal.live, s.journal.next, recordBytes s.journal.next r) := by
  simp only [programmed, ht, hr]

/-- The state in which a verified append is reported: IDLE, its position used (R132). -/
def appended (s : State) : State := s.setJournal { s.journal with task := .idle, next := s.journal.next + 1 }

theorem exec_append (ht : s.journal.task = .append) (hr : s.journal.requests = .record r :: rest) :
    exec (.pageProgramDone (recordBytes s.journal.next r)) s = .next (settle (reportRecord r true (appended s))) := by
  rw [exec_pageProgramDone (programmed_of_append ht hr)]
  simp only [verified, ht, hr]
  rfl

/-- The BEGIN record of a copy cancelled meanwhile, reported, is the end of the step in flight (R107, R108). -/
theorem reportRecord_of_abortedBegin {written : Bool} (hk : r.kind = .beginRec) (hs : t.copy.state = .aborting) :
    reportRecord r written t = stepEnded (dropRequest t) := by
  have state : (dropRequest t).copy.state = .aborting := hs
  rw [reportRecord, hk, recordReported, beginReported, state]

/-- Settles O56. The append is reported with its request gone; a BEGIN is followed by the line's READ or, in an abort,
by the CANCEL record. -/
theorem appendsAreVerified : Obligations.AppendsAreVerified := by
  intro s r j b ht hr hj hb done hdone
  rw [exec_append ht hr]
  have dropped : dropRequest (appended s) = done := by
    rw [hdone, dropRequest, appended, State.setJournal_journal, hr]; rfl
  refine ⟨fun hk hc _ hw hl u hu hs => ?_, fun hk hc ho hn left hleft u hu hs => ?_, fun hk ha u hu hs => ?_,
    fun hk u hu hs => ?_⟩ <;> refine congrArg Host.Outcome.next ?_
  · refine settle_reportRecord_of_begin (t := appended s) hk hc hj hw hl ?_ hs
    rw [hu, ← dropped]; rfl
  · rw [reportRecord_of_abortedBegin (t := appended s) hk hc, dropped]
    have ended : stepEnded done = sendCancel left := by rw [hleft, hdone]; rfl
    have journal : left.journal = done.journal := by rw [hleft, removeHolder_journal]
    have copy : left.copy.job = some j := by
      obtain ⟨H, K, L, T, h⟩ := removeHolder_frame .copy { done with copy := { s.copy with
        data := none, writeKind := none, retry := none, stepInFlight := false, request := .absent } }
      rw [hleft, h]; exact hj
    have takes : done.journal.TakesRecords := by
      rw [hdone]; exact ⟨ho, nofun, fun _ => ⟨rfl, Nat.succ_lt_succ hn⟩⟩
    rw [ended]
    exact settle_sendCancel_of_taken copy (journal ▸ takes) (journal ▸ hu) hs
  · have reported : reportRecord r true (appended s) = u := by
      rw [reportRecord_of_assign (t := appended s) hk hj hb (by simp [ha]), hu, ← dropped]; rfl
    rw [reported, settle_of_settled hs]
  · have reported : reportRecord r true (appended s) = u := by
      rw [reportRecord_of_cancel (t := appended s) hk, hu, ← dropped]; rfl
    rw [reported, settle_of_settled hs]

end Sys2Proof.Machine

namespace Sys2Proof.Machine

/-! ## A store that stays OFFLINE

Once a store fault has taken the store OFFLINE, whatever follows in its step leaves it so: every record is skipped, no
entry becomes journaled, the STORE flag stays, and events join behind those told already (`StoreDown`). -/

variable {s t : State} {q : List EventRecord}

/-! ### What stays -/

/-- The store is OFFLINE with the STORE flag set and no ACTIVE entry journaled, and the records `q` stand at the front
of the Event Queue (R24, R139, R151). -/
structure StoreDown (q : List EventRecord) (s : State) : Prop where
  store : s.journal.store = .offline
  flag : s.events.flags.getLsbD 4 = true
  told : q <+: s.events.records
  unjournaled : ∀ i : Fin 128, ∀ b ∈ s.remap[i], b.stage = .active → b.journaled = false

/-- What `StoreDown` reads. -/
def storeFields (s : State) : Store × Events × Remap := (s.journal.store, s.events, s.remap)

theorem StoreDown.same (h : StoreDown q s) (ht : storeFields t = storeFields s) : StoreDown q t := by
  simp only [storeFields, Prod.mk.injEq] at ht
  obtain ⟨hj, he, hr⟩ := ht
  exact ⟨hj ▸ h.store, he ▸ h.flag, he ▸ h.told, hr ▸ h.unjournaled⟩

theorem StoreDown.ite {c : Prop} [Decidable c] (h : StoreDown q s) (h' : StoreDown q t) :
    StoreDown q (if c then s else t) := by split <;> assumption

theorem StoreDown.offer (e : Event) (h : StoreDown q s) : StoreDown q (offer e s) :=
  ⟨h.store, offer_keeps_flag e s 4 h.flag, h.told.trans (offerEvent_records _ _ _), h.unjournaled⟩

/-- An entry may be set to anything but an ACTIVE journaled binding. -/
theorem StoreDown.setEntry {e : Fin 128} {x : Option Binding} (h : StoreDown q s)
    (hx : ∀ b ∈ x, b.stage = .active → b.journaled = false) : StoreDown q (s.setRemap (s.remap.set e x)) := by
  refine ⟨h.store, h.flag, h.told, fun i b hb => ?_⟩
  rw [State.setRemap_remap, vector_set_getElem] at hb
  split at hb
  · exact hx b hb
  · exact h.unjournaled i b hb

theorem StoreDown.skips (h : StoreDown q s) : recordSkipped s = true :=
  recordSkipped_of_not_online (by rw [h.store]; nofun)

/-! ### The copy engine told -/

theorem StoreDown.removeHolder (k : Holder) (h : StoreDown q s) : StoreDown q (removeHolder k s) := by
  obtain ⟨H, K, L, T, e⟩ := removeHolder_frame k s
  exact h.same (by rw [e]; rfl)

theorem StoreDown.takeLine (h : StoreDown q s) : StoreDown q (takeLine s) := by
  unfold Machine.takeLine; dsimp only; split <;> exact h.same rfl

theorem StoreDown.sendCancel (h : StoreDown q s) : StoreDown q (sendCancel s) := by
  unfold Machine.sendCancel; split
  · exact h
  · exact (h.same (t := cancelReported s) rfl).ite (h.same rfl)

theorem StoreDown.stepEnded (h : StoreDown q s) : StoreDown q (stepEnded s) := by
  rw [stepEnded_eq]
  exact ((h.removeHolder .copy).same (t := State.setCopy _ s.copy.stepOver) rfl).sendCancel

theorem StoreDown.beginReported (h : StoreDown q s) : StoreDown q (beginReported s) := by
  unfold Machine.beginReported; split
  · exact h.takeLine
  · exact h.stepEnded
  · exact h

/-- The ASSIGN record skipped makes an entry ACTIVE and not journaled (R18, R24). -/
theorem StoreDown.assignReported (h : StoreDown q s) : StoreDown q (assignReported false s) := by
  unfold Machine.assignReported; split
  · exact h
  · rename_i j _
    have entry : StoreDown q (s.setRemap (modifyEntry j.entry (fun b =>
        { b with stage := .active, journaled := false }) s.remap)) := by
      unfold modifyEntry; split
      · split
        · exact h.same rfl
        · exact h.setEntry fun b hb _ => by cases hb; rfl
      · exact h.same rfl
    exact ((entry.same (t := State.setHealth _ _) rfl).offer _).same rfl

theorem StoreDown.reportRecord (r : JRecord) (h : StoreDown q s) : StoreDown q (reportRecord r false s) := by
  have dropped : StoreDown q (dropRequest s) := h.same rfl
  unfold Machine.reportRecord recordReported; split
  · exact dropped.beginReported
  · exact dropped.assignReported
  · exact dropped.same rfl

theorem StoreDown.startupComplete (h : StoreDown q s) : StoreDown q (startupComplete s) := by
  have online : StoreDown q (s.setMode .online) := h.same rfl
  have timed : StoreDown q (startTimer (s.setMode .online)) := online.same rfl
  unfold Machine.startupComplete
  exact (timed.ite online).ite h

/-- What the work under way is told of the fault (R139). -/
theorem StoreDown.faultEnds (k : Task) (h : StoreDown q s) : StoreDown q (faultEnds k s) := by
  have appended : StoreDown q (Machine.faultEnds .append s) := by
    unfold Machine.faultEnds; dsimp only; split
    · exact h.reportRecord _
    · exact h
  have cleaned : StoreDown q (endCleaning s) :=
    (StoreDown.startupComplete (h.same (t := setTask .idle s) rfl)).same rfl
  cases k with
  | append => exact appended
  | compact c x p =>
    cases c with
    | append => exact appended
    | geometry | attach => exact h.same rfl
  | attachReady | attachHeaders got | reconcile w r => exact h.same rfl
  | initErase | initHeader => exact h.startupComplete
  | cleanHeaders got | cleanErase x l | cleanHeader => exact cleaned
  | idle | hold | replayHeaders got | replayRecords n l | raw => exact h

/-! ### What follows in the step -/

theorem StoreDown.serveHead (h : StoreDown q s) : StoreDown q (serveHead s) := by
  have down : ¬ s.journal.store = .online := by rw [h.store]; nofun
  unfold Machine.serveHead; split
  · exact h
  · rw [if_neg down]; exact h.reportRecord _
  · rw [if_neg down]; exact h.same rfl
  · exact h.same rfl
  · rw [if_neg down]; exact h.same rfl

theorem StoreDown.serveWaiting (n : Nat) (h : StoreDown q s) : StoreDown q (serveWaiting n s) := by
  induction n generalizing s with
  | zero => exact h
  | succ n ih => exact (ih h.serveHead).ite h

theorem StoreDown.abortEndIfDue (h : StoreDown q s) : StoreDown q (abortEndIfDue s) := by
  have withdrawn (n : Nat) : StoreDown q (withdrawHalves n s) := by
    refine h.same (foldl_keeps (g := storeFields) (fun u i => ?_) _ _)
    unfold withdrawHalf finishHalf; split
    · split
      · split
        · rfl
        · dsimp only; split <;> rfl
      · rfl
    · rfl
  have freed (j : CopyJob) (u : State) (hu : StoreDown q u) : StoreDown q (u.setRemap (freeJobEntry j u.remap)) := by
    unfold freeJobEntry; split
    · exact hu.setEntry nofun
    · exact hu.same rfl
  unfold Machine.abortEndIfDue; split
  · split
    · exact ((freed _ _ (withdrawn _)).offer _).same rfl
    · exact h
  · exact h

theorem StoreDown.considerStart (h : StoreDown q s) : StoreDown q (considerStart s) := by
  unfold Machine.considerStart; split
  · split
    · exact h
    · rename_i p rest _; split
      · rename_i k e _ _
        have begun : StoreDown q (copyBegun p rest e k s) := by
          have entry : StoreDown q (s.setRemap (s.remap.set e (some ⟨.copying, p.span, k, 0, p.origin, false, 0⟩))) :=
            h.setEntry fun b hb ha => by cases hb; cases ha
          exact (entry.offer (spanEvent .retireStarted .copy p.span (some k) (some e.val))).same rfl
        rw [startCopy_eq, sendBegin_of_skipped _ begun.skips rfl]
        exact begun.takeLine
      · exact h.ite ((h.offer _).same rfl)
  · exact h

theorem StoreDown.copyReadIfDue (h : StoreDown q s) : StoreDown q (copyReadIfDue s) := by
  obtain ⟨c, hc, -⟩ := copyReadIfDue_frame s
  exact h.same (by rw [hc]; rfl)

theorem StoreDown.sweepReadIfDue (h : StoreDown q s) : StoreDown q (sweepReadIfDue s) := by
  obtain ⟨w, hw⟩ := sweepReadIfDue_frame s
  exact h.same (by rw [hw]; rfl)

/-- A store that a fault has taken OFFLINE is so when its step ends (R139). -/
theorem StoreDown.settle (h : StoreDown q s) : StoreDown q (settle s) :=
  ((h.serveWaiting _).abortEndIfDue.considerStart.serveWaiting _).copyReadIfDue.sweepReadIfDue

end Sys2Proof.Machine

namespace Sys2Proof.Machine

/-! ## Store faults

How a fault is found, with the value and the half that its event names (Table 9-5); the state in which the work under
way is told of it; and what each work is told. -/

variable {s t u : State} {c : Instr} {v : Nat} {h : Option HalfId}

/-! ### The fault's state -/

/-- A store fault up to the point where the work under way is told: the event offered, the store OFFLINE with no ACTIVE
entry journaled, and the controller IDLE with no snapshot (R24, R139). -/
def storeFaulted (v : Nat) (h : Option HalfId) (s : State) : State :=
  { offer (journalEvent .storeFault h v) s with
    remap := journalFlags false s.remap
    journal := { s.journal with store := .offline, task := .idle, snapshot := none } }

theorem storeFault_eq (v : Nat) (h : Option HalfId) (mismatch : Bool) (s : State) : storeFault v h mismatch s =
    faultEnds s.journal.task (storeFaulted (if mismatch then v + 16 else v) h s) := rfl

/-- After a fault no ACTIVE entry is journaled (R24). -/
theorem unjournaled_of_journalFlags (r : Remap) (i : Fin 128) :
    ∀ b ∈ (journalFlags false r)[i], b.stage = .active → b.journaled = false := by
  intro b hb ha
  rw [journalFlags, tableMap_getElem] at hb
  obtain ⟨x, -, hx⟩ := Option.map_eq_some_iff.1 hb
  split at hx
  · rw [← hx]
  · rename_i hn; rw [hx] at hn; exact absurd ha hn

/-- An entry under copy is not touched (R24). -/
theorem journalFlags_of_copying {r : Remap} {i : Fin 128} {b : Binding} (w : Bool) (hb : r[i] = some b)
    (ha : b.stage ≠ .active) : (journalFlags w r)[i] = some b := by
  rw [journalFlags, tableMap_getElem, hb, Option.map_some, if_neg ha]

theorem storeDown_storeFaulted (v : Nat) (h : Option HalfId) (s : State) :
    StoreDown (offer (journalEvent .storeFault h v) s).events.records (storeFaulted v h s) :=
  ⟨rfl, offer_sets_flag (journalEvent .storeFault h v) s, List.prefix_refl _, unjournaled_of_journalFlags s.remap⟩

/-! ### How a fault is found -/

/-- The value and half of a page program's fault, by the work under way (Table 9-5). -/
def ProgramFault (s : State) (v : Nat) (h : Option HalfId) : Prop :=
  s.journal.task = .append ∧ v = 1 ∧ h = s.journal.live ∨
  (∃ c x n, s.journal.task = .compact c x (.snapshot n) ∧ v = 3 ∧ h = some x) ∨
  (∃ c x, s.journal.task = .compact c x .header ∧ v = 4 ∧ h = some x) ∨
  (∃ w r, s.journal.task = .reconcile w r ∧ v = 3 ∧ h = s.journal.live) ∨
  (s.journal.task = .initHeader ∨ s.journal.task = .cleanHeader) ∧ v = 5 ∧ h = some .a

/-- The value and half of a sector erase's fault, by the work under way (Table 9-5). -/
def EraseFault (s : State) (v : Nat) (h : Option HalfId) : Prop :=
  (∃ c x, s.journal.task = .compact c x .erasing ∧ v = 2 ∧ h = some x) ∨
  s.journal.task = .initErase ∧ v = 5 ∧ h = some .a ∨
  ∃ x l, s.journal.task = .cleanErase x l ∧ v = 5 ∧ h = some x

/-- The commands by which a fault is found, with the value and the half that its event names (R127, R134, R141). -/
def FaultFound (s : State) (c : Instr) (v : Nat) (h : Option HalfId) : Prop :=
  c = .programLimitExpiry ∧ programmed s ≠ none ∧ ProgramFault s v h ∨
  (∃ back v' half pos bytes, c = .pageProgramDone back ∧ programmed s = some (half, pos, bytes) ∧
    back ≠ bytes ∧ ProgramFault s v' h ∧ v = v' + 16) ∨
  c = .eraseLimitExpiry ∧ EraseFault s v h ∨
  c = .attachReadyExpiry ∧ s.journal.task = .attachReady ∧ v = 6 ∧ h = none ∨
  (∃ cause x, c = .sectorEraseDone ∧ s.journal.task = .compact cause x .erasing ∧
    s.journal.snapshot = some [] ∧ s.journal.epoch = 4294967295 ∧ v = 4 ∧ h = some x) ∨
  ∃ cause x l r, c = .pageProgramDone (recordBytes (l.length + 1) r) ∧
    s.journal.task = .compact cause x (.snapshot l.length) ∧ s.journal.snapshot = some (l ++ [r]) ∧
    s.journal.epoch = 4294967295 ∧ v = 4 ∧ h = some x

/-- A program under way has the value and the half of its fault. -/
theorem ProgramFault.of_programmed {half : Option HalfId} {pos : Nat} {bytes : List Byte}
    (hp : programmed s = some (half, pos, bytes)) (hf : ProgramFault s v h) :
    faultValue s.journal.task = v ∧ half = h := by
  unfold programmed at hp
  rcases hf with ⟨ht, rfl, rfl⟩ | ⟨c, x, n, ht, rfl, rfl⟩ | ⟨c, x, ht, rfl, rfl⟩ | ⟨w, r, ht, rfl, rfl⟩ |
    ⟨ht | ht, rfl, rfl⟩ <;> rw [ht] at hp ⊢ <;> refine ⟨rfl, ?_⟩ <;> dsimp only at hp
  · split at hp
    · cases hp; rfl
    · cases hp
  · obtain ⟨r, -, hr⟩ := Option.map_eq_some_iff.1 hp
    cases hr; rfl
  all_goals cases hp; rfl

/-- An erase under way has the value and the half of its fault. -/
theorem EraseFault.of_erasing (hf : EraseFault s v h) :
    faultValue s.journal.task = v ∧ ∃ x, erasing s.journal.task = some x ∧ h = some x := by
  rcases hf with ⟨c, x, ht, rfl, rfl⟩ | ⟨ht, rfl, rfl⟩ | ⟨x, l, ht, rfl, rfl⟩ <;> rw [ht] <;> exact ⟨rfl, _, rfl, rfl⟩

theorem exec_programLimitExpiry {half : Option HalfId} {pos : Nat} {bytes : List Byte}
    (hp : programmed s = some (half, pos, bytes)) : exec .programLimitExpiry s =
      .next (settle (faultEnds s.journal.task (storeFaulted (faultValue s.journal.task) half s))) := by
  simp only [exec, execProgramLimitExpiry, hp, storeFault_eq]; rfl

theorem exec_programMismatch {half : Option HalfId} {pos : Nat} {bytes back : List Byte}
    (hp : programmed s = some (half, pos, bytes)) (hb : back ≠ bytes) : exec (.pageProgramDone back) s =
      .next (settle (faultEnds s.journal.task (storeFaulted (faultValue s.journal.task + 16) half s))) := by
  simp only [exec, execPageProgramDone, hp, if_neg hb, storeFault_eq]; rfl

theorem exec_eraseLimitExpiry {x : HalfId} (he : erasing s.journal.task = some x) : exec .eraseLimitExpiry s =
    .next (settle (faultEnds s.journal.task (storeFaulted (faultValue s.journal.task) (some x) s))) := by
  simp only [exec, execEraseLimitExpiry, he, storeFault_eq]; rfl

theorem exec_attachReadyExpiry (ht : s.journal.task = .attachReady) : exec .attachReadyExpiry s =
    .next (settle (faultEnds s.journal.task (storeFaulted 6 none s))) := by
  simp only [exec, execAttachReadyExpiry, ht, if_true, storeFault_eq]; rfl

/-- The next record of a snapshot is programmed, or with none left the header (R133). -/
theorem snapshotStep_eq {cause : CompactCause} {x : HalfId} {l : List JRecord} (hl : s.journal.snapshot = some l)
    (i : Nat) : snapshotStep cause x i s =
      if i < l.length then setTask (.compact cause x (.snapshot i)) s else headerStep cause x s := by
  rw [snapshotStep, hl]; rfl

/-- The header step at the largest epoch is a fault of the header (R134). -/
theorem headerStep_of_lastEpoch {cause : CompactCause} {x : HalfId} (he : s.journal.epoch = 4294967295) :
    headerStep cause x s = faultEnds s.journal.task (storeFaulted 4 (some x) s) := if_pos he

theorem exec_sectorEraseDone {x : HalfId} (he : erasing s.journal.task = some x) :
    exec .sectorEraseDone s = .next (settle (erased s)) := by
  simp only [exec, execSectorEraseDone, he]

/-- A compaction programs the record of its snapshot behind the header (R133). -/
theorem programmed_of_snapshot {cause : CompactCause} {x : HalfId} {i : Nat} {l : List JRecord} {r : JRecord}
    (ht : s.journal.task = .compact cause x (.snapshot i)) (hl : s.journal.snapshot = some l) (hr : l[i]? = some r) :
    programmed s = some (some x, i + 1, recordBytes (i + 1) r) := by
  simp only [programmed, ht, hl, Option.getD_some, hr, Option.map_some]

/-- However a fault is found, the work under way is told of it, and what follows is settled (R139). -/
theorem FaultFound.exec (hf : FaultFound s c v h) :
    exec c s = .next (settle (faultEnds s.journal.task (storeFaulted v h s))) := by
  rcases hf with ⟨rfl, hp, hf⟩ | ⟨back, v', half, pos, bytes, rfl, hp, hb, hf, rfl⟩ | ⟨rfl, hf⟩ | ⟨rfl, ht, rfl, rfl⟩ |
    ⟨cause, x, rfl, ht, hl, he, rfl, rfl⟩ | ⟨cause, x, l, r, rfl, ht, hl, he, rfl, rfl⟩
  · obtain ⟨⟨half, pos, bytes⟩, hp⟩ := Option.ne_none_iff_exists'.1 hp
    obtain ⟨rfl, rfl⟩ := hf.of_programmed hp
    exact exec_programLimitExpiry hp
  · obtain ⟨rfl, rfl⟩ := hf.of_programmed hp
    exact exec_programMismatch hp hb
  · obtain ⟨rfl, x, hx, rfl⟩ := hf.of_erasing
    exact exec_eraseLimitExpiry hx
  · exact exec_attachReadyExpiry ht
  · rw [exec_sectorEraseDone (x := x) (by rw [ht]; rfl), erased, ht]
    dsimp only
    rw [snapshotStep_eq hl, List.length_nil, if_neg (Nat.lt_irrefl 0), headerStep_of_lastEpoch he, ht]
  · have last : (l ++ [r])[l.length]? = some r := by simp
    rw [exec_pageProgramDone (programmed_of_snapshot ht hl last), verified, ht]
    dsimp only
    rw [snapshotStep_eq hl, if_neg (by simp), headerStep_of_lastEpoch he, ht]

/-! ### What the work under way is told -/

/-- The record of an append, or of the append that began a compaction, is reported skipped (R139). -/
theorem faultEnds_of_append {r : JRecord} {rest : List JRequest} {k : Task}
    (hk : k = .append ∨ ∃ x st, k = .compact .append x st) (hr : t.journal.requests = .record r :: rest) :
    faultEnds k t = reportRecord r false t := by
  rcases hk with rfl | ⟨x, st, rfl⟩ <;> simp only [faultEnds, hr]

/-- A waiting geometry write or attach is answered OK (R139). -/
theorem faultEnds_of_command {q : JRequest} {rest : List JRequest} {k : Task}
    (hk : k = .attachReady ∨ (∃ w r, k = .reconcile w r) ∨ ∃ cause x st, k = .compact cause x st ∧ cause ≠ .append)
    (hr : t.journal.requests = q :: rest) : faultEnds k t =
      { t with journal := { t.journal with requests := rest }, link := replied .ok [] } := by
  rw [← serveCommand_eq hr]
  rcases hk with rfl | ⟨w, r, rfl⟩ | ⟨cause, x, st, rfl, hc⟩
  · rfl
  · rfl
  · cases cause with
    | append => exact absurd rfl hc
    | geometry | attach => rfl

/-- Start-up work ends with the bridge ONLINE and the sweep's timer running (R3, R139). -/
theorem faultEnds_of_startup {k : Task} (hm : t.mode = .startup) (hw : t.sweep.state = .waiting)
    (hk : k = .initErase ∨ k = .initHeader) : faultEnds k t =
      { t with mode := .online, sweep := { t.sweep with timer := some t.sweep.interval } } := by
  have ends : faultEnds k t = startupComplete t := by rcases hk with rfl | rfl <;> rfl
  rw [ends, startupComplete_of_waiting hm hw]; rfl

/-- A cleaning ends in the same way, and CLEAN_START is answered OK (R138). -/
theorem endCleaning_of_waiting (hm : t.mode = .startup) (hw : t.sweep.state = .waiting) : endCleaning t =
    { t with
      mode := .online
      journal := { t.journal with task := .idle }
      sweep := { t.sweep with timer := some t.sweep.interval }
      link := replied .ok [] } := by
  rw [endCleaning, startupComplete_of_waiting (s := setTask .idle t) hm hw]; rfl

theorem faultEnds_of_cleaning {k : Task} (hk : (∃ x l, k = .cleanErase x l) ∨ k = .cleanHeader) :
    faultEnds k t = endCleaning t := by
  rcases hk with ⟨x, l, rfl⟩ | rfl <;> rfl

/-! ### The statement -/

/-- The half that a fault's event names, as its statement writes it (R150). -/
theorem halfNumber_eq (x : HalfId) : halfNumber x = if x = .a then 0 else 1 := by cases x <;> rfl

/-- The step of a fault ends with the store OFFLINE and its event told, whatever the work under way is told (R139). -/
theorem storeDown_of_exec {k : Task} (hx : exec c s = .next (settle (faultEnds k (storeFaulted v h s)))) :
    ∃ t, exec c s = .next t ∧ StoreDown (offer (journalEvent .storeFault h v) s).events.records t :=
  ⟨_, hx, ((storeDown_storeFaulted v h s).faultEnds k).settle⟩

/-- Settles O57. Every way to find a fault leads to one state, of which the work under way is told; what is told it
names the state that the command answers. -/
theorem storeFaultsTakeTheStoreOffline : Obligations.StoreFaultsTakeTheStoreOffline := by
  intro s faulted program erase finds
  have down {c : Instr} {v : Nat} {h : Option HalfId} {k : Task}
      (hx : exec c s = .next (settle (faultEnds k (storeFaulted v h s)))) : ∃ t, exec c s = .next t ∧ faulted t :=
    let ⟨t, ht, hd⟩ := storeDown_of_exec hx
    ⟨t, ht, hd.store, hd.flag, hd.unjournaled⟩
  refine ⟨fun h pos bytes hp => ⟨down (exec_programLimitExpiry hp), fun back hb => down (exec_programMismatch hp hb)⟩,
    fun he => ?_, fun ht => down (exec_attachReadyExpiry ht), fun c h ht hl he => ?_,
    fun c v h hf told base htold hbase => ?_⟩
  · obtain ⟨x, hx⟩ := Option.ne_none_iff_exists'.1 he
    exact down (exec_eraseLimitExpiry hx)
  · have found : FaultFound s .sectorEraseDone 4 (some h) :=
      .inr (.inr (.inr (.inr (.inl ⟨c, h, rfl, ht, hl, he, rfl, rfl⟩))))
    exact down found.exec
  · have found : FaultFound s c v h := hf
    have told_eq : told = offer (journalEvent .storeFault h v) s := by
      rw [htold, journalEvent]; simp only [← halfNumber_eq]
    obtain rfl : base = storeFaulted v h s := by rw [hbase, told_eq]; rfl
    have ends (u : State) (hu : faultEnds s.journal.task (storeFaulted v h s) = u) (hs : settled u = true) :
        exec c s = .next u := by
      rw [found.exec, hu, settle_of_settled hs]
    refine ⟨?_, fun r rest j b hk hr hj hb taken htaken => ?_, fun q rest hr hk u hu => ?_,
      fun hm hw up hup => ⟨fun hk => ?_, fun hk u hu => ?_⟩⟩
    · obtain ⟨t, ht, hd⟩ := storeDown_of_exec found.exec
      exact ⟨t, ht, ⟨hd.store, hd.flag, hd.unjournaled⟩, told_eq ▸ hd.told⟩
    · have reports : faultEnds s.journal.task (storeFaulted v h s) = reportRecord r false (storeFaulted v h s) :=
        faultEnds_of_append hk hr
      have gone : (storeFaulted v h s).journal.requests.tail = rest := congrArg List.tail hr
      rw [← gone] at htaken
      refine ⟨fun hk u hu => ends u ?_, fun hk ha u hu => ends u ?_, fun hk hc _ hw hl u hu hs => ?_⟩
      · rw [reports, reportRecord_of_cancel hk, hu, htaken]; rfl
      · have entry : (storeFaulted v h s).remap[j.entry] = some b :=
          journalFlags_of_copying false hb (by simp [ha])
        rw [reports, reportRecord_of_assign (t := storeFaulted v h s) hk hj entry (by simp [ha]), hu, htaken]; rfl
      · rw [found.exec, reports, settle_reportRecord_of_begin (t := storeFaulted v h s) hk hc hj hw hl
          (by rw [hu, htaken]; rfl) hs]
    · rw [hu]; exact ends _ (faultEnds_of_command hk hr)
    · rw [hup]; exact ends _ (faultEnds_of_startup hm hw hk)
    · rw [hu, hup]
      exact ends _ ((faultEnds_of_cleaning hk).trans (endCleaning_of_waiting (t := storeFaulted v h s) hm hw))

end Sys2Proof.Machine

namespace Sys2Proof.Machine

/-! ## Positions read from the flash

Two headers choose the live half for whatever reads them; a position of replay ends it or is taken; and what the end
of replay leaves. -/

variable {s t u : State} {a b bytes : List Byte} {hd : Header} {l : List OpenPair} {pos : Nat}

/-! ### Headers -/

/-- An empty position is no header (R128). -/
theorem validHeader_of_empty (h : isEmptyPosition b = true) : validHeader b = none := by
  have kind : b.headD 0 ≠ 0x01 := by
    cases b with
    | nil => decide
    | cons x xs =>
      simp only [isEmptyPosition, List.all_cons, Bool.and_eq_true, beq_iff_eq] at h
      rw [List.headD_cons, h.1]; decide
  exact if_neg fun hv => kind hv.1

theorem damagedHeader_of_empty (h : isEmptyPosition b = true) : damagedHeader b = false := by
  simp [damagedHeader, h]

theorem damagedHeader_of_valid (h : validHeader b = some hd) : damagedHeader b = false := by
  simp [damagedHeader, h]

theorem reportDamaged_of_sound {x : HalfId} (h : damagedHeader b = false) : reportDamaged x b s = s := by
  simp [reportDamaged, h]

/-- The report of a damaged header is an event alone (R135). -/
theorem reportDamaged_setTask (x : HalfId) (b : List Byte) (k : Task) (s : State) :
    reportDamaged x b (setTask k s) = setTask k (reportDamaged x b s) := by
  unfold reportDamaged; split <;> rfl

theorem reportDamaged_journal (x : HalfId) (b : List Byte) (s : State) : (reportDamaged x b s).journal = s.journal := by
  unfold reportDamaged; split <;> rfl

/-- Both headers' damage reported, half A's first (R135). -/
def headersReported (a b : List Byte) (s : State) : State := reportDamaged .b b (reportDamaged .a a s)

theorem headersReported_journal (a b : List Byte) (s : State) : (headersReported a b s).journal = s.journal :=
  (reportDamaged_journal ..).trans (reportDamaged_journal ..)

theorem headersReported_of_sound (ha : damagedHeader a = false) (hb : damagedHeader b = false) :
    headersReported a b s = s := by
  rw [headersReported, reportDamaged_of_sound ha, reportDamaged_of_sound hb]

/-- A valid header in half A, and in half B none or one of no higher epoch, make A live, and nothing is damaged
(R128). -/
theorem liveHalf_a (ha : validHeader a = some hd)
    (hb : isEmptyPosition b = true ∨ ∃ g, validHeader b = some g ∧ g.epoch ≤ hd.epoch) :
    LiveHalf a b (some (.a, hd)) ∧ headersReported a b s = s := by
  have sound : damagedHeader b = false := hb.elim damagedHeader_of_empty fun ⟨_, hg, _⟩ => damagedHeader_of_valid hg
  refine ⟨.inr (.inl ⟨hd, rfl, ha, fun g hg => ?_⟩), headersReported_of_sound (damagedHeader_of_valid ha) sound⟩
  rcases hb with hb | ⟨g', hb, he⟩
  · rw [validHeader_of_empty hb] at hg; cases hg
  · rw [hb] at hg; cases hg; exact he

/-- A flash read under way hands its positions on in order (R135, R136). -/
theorem exec_journalReadDone {ps : List (List Byte)} (h : readingFlash s.journal.task = true) :
    exec (.journalReadDone ps) s = .next (settle (ps.foldl (fun t p => readPosition p t) s)) :=
  congrArg Host.Outcome.next (if_pos h)

/-- The headers are read by replay (R135). -/
theorem exec_replayHeaders (ht : s.journal.task = .replayHeaders none) : exec (.journalReadDone [a, b]) s =
    .next (settle (replayChoose a b (setTask (.replayHeaders (some a)) s))) := by
  have first : readPosition a s = setTask (.replayHeaders (some a)) s := by rw [readPosition, ht]
  rw [exec_journalReadDone (by rw [ht]; rfl), List.foldl, first]; rfl

/-- The headers are read by a cleaning (R138). -/
theorem exec_cleanHeaders (ht : s.journal.task = .cleanHeaders none) : exec (.journalReadDone [a, b]) s =
    .next (settle (cleanChoose a b (setTask (.cleanHeaders (some a)) s))) := by
  have first : readPosition a s = setTask (.cleanHeaders (some a)) s := by rw [readPosition, ht]
  rw [exec_journalReadDone (by rw [ht]; rfl), List.foldl, first]; rfl

/-- The headers are read by an attach (R141). -/
theorem exec_attachHeaders (ht : s.journal.task = .attachHeaders none) : exec (.journalReadDone [a, b]) s =
    .next (settle (attachChoose a b (setTask (.attachHeaders (some a)) s))) := by
  have first : readPosition a s = setTask (.attachHeaders (some a)) s := by rw [readPosition, ht]
  rw [exec_journalReadDone (by rw [ht]; rfl), List.foldl, first]; rfl

/-- Replay that finds no valid header begins a blank store's initialisation (R135). -/
theorem exec_replayHeaders_of_none (ht : s.journal.task = .replayHeaders none) (h : LiveHalf a b none) :
    exec (.journalReadDone [a, b]) s = .next (settle
      { headersReported a b s with journal := { s.journal with task := .initErase } }) := by
  rw [exec_replayHeaders ht, replayChoose, reportDamaged_setTask, reportDamaged_setTask, chooseLive_of_liveHalf h,
    ← headersReported_journal a b s]
  rfl

/-- Replay takes the geometry and the epoch of the live half's header, and reads its records (R135). -/
theorem exec_replayHeaders_of_some {x : HalfId} (ht : s.journal.task = .replayHeaders none)
    (h : LiveHalf a b (some (x, hd))) : exec (.journalReadDone [a, b]) s = .next (settle
      { headersReported a b s with
        geom := hd.geom
        journal := { s.journal with live := some x, epoch := hd.epoch, task := .replayRecords 1 [] } }) := by
  rw [exec_replayHeaders ht, replayChoose, reportDamaged_setTask, reportDamaged_setTask, chooseLive_of_liveHalf h,
    ← headersReported_journal a b s]
  rfl

/-! ### Replay's positions -/

/-- Replay takes one position (R136). -/
theorem exec_replayRecords (ht : s.journal.task = .replayRecords pos l) :
    exec (.journalReadDone [bytes]) s = .next (settle (replayPosition pos l bytes s)) := by
  have first : readPosition bytes s = replayPosition pos l bytes s := by rw [readPosition, ht]
  rw [exec_journalReadDone (by rw [ht]; rfl), List.foldl, first]; rfl

theorem replayPosition_of_empty (h : isEmptyPosition bytes = true) :
    replayPosition pos l bytes s = replayStops pos l s := if_pos h

/-! ### The end of replay -/

/-- The open pairs offered, in order (R137). -/
def pairsOffered (l : List OpenPair) (s : State) : State := l.foldl (fun t p => offerResumed p t) s

/-- An open pair offered changes the Retirement Queue and the Event Queue (R137). -/
theorem offerResumed_frame (p : OpenPair) (s : State) :
    ∃ Q E, offerResumed p s = { s with retire := Q, events := E } := by
  unfold offerResumed; split <;> exact ⟨_, _, rfl⟩

theorem pairsOffered_frame (l : List OpenPair) (s : State) :
    ∃ Q E, pairsOffered l s = { s with retire := Q, events := E } := by
  induction l generalizing s with
  | nil => exact ⟨s.retire, s.events, rfl⟩
  | cons p l ih =>
    obtain ⟨Q, E, h⟩ := ih (offerResumed p s)
    obtain ⟨Q', E', h'⟩ := offerResumed_frame p s
    exact ⟨Q, E, by rw [pairsOffered, List.foldl_cons, ← pairsOffered, h, h']⟩

/-- Replay that ends on a live half, in STARTUP with a WAITING sweep, takes the store and the bridge ONLINE (R3,
R137). -/
theorem endReplay_of_live (hl : s.journal.live ≠ none) (ho : s.journal.store ≠ .disabled) (hm : s.mode = .startup)
    (hw : s.sweep.state = .waiting) (hu : u = pairsOffered l (setTask .idle s)) : endReplay l s =
      { u with
        mode := .online
        journal := { u.journal with store := .online }
        sweep := { u.sweep with timer := some u.sweep.interval } } := by
  obtain ⟨Q, E, h⟩ := pairsOffered_frame l (setTask .idle s)
  have online : (u.journal.live.isSome && u.journal.store != .disabled) = true := by
    rw [hu, h]
    simpa [setTask, ho, Option.isSome_iff_ne_none] using hl
  have mode : u.mode = .startup := by rw [hu, h]; exact hm
  have sweep : u.sweep.state = .waiting := by rw [hu, h]; exact hw
  have ends : endReplay l s = startupComplete (setStore .online u) := by
    rw [endReplay, ← pairsOffered, ← hu, if_pos online]
  rw [ends, startupComplete_of_waiting (s := setStore .online u) mode sweep]; rfl

end Sys2Proof.Machine

namespace Sys2Proof.Machine

/-! ## What reconciliation misses

An attach needs an ASSIGN record for each ACTIVE entry without one and a CANCEL record for each BEGIN left open
(R141). -/

variable {w : List JRecord} {b : Binding} {o r : JRecord} {t : Remap}

/-- The half holds an ASSIGN record of the binding (R141). -/
def Assigned (w : List JRecord) (b : Binding) : Prop :=
  ∃ a ∈ w, a.kind = .assignRec ∧ a.span = b.span ∧ a.slot = b.slot

/-- A BEGIN record with no later ASSIGN or CANCEL of its span, which is not under copy (R141). -/
def LeftOpen (t : Remap) (w : List JRecord) (o : JRecord) : Prop :=
  ∃ pre post, w = pre ++ o :: post ∧ o.kind = .beginRec ∧
    (∀ a ∈ post, a.span = o.span → a.kind = .beginRec) ∧
    ∀ i : Fin 128, ∀ b ∈ t[i], b.span = o.span → b.stage = .active

theorem assignWritten_iff : assignWritten w b = true ↔ Assigned w b := by
  simp [assignWritten, Assigned, and_assoc]

/-- An open BEGIN is one that only BEGIN records of its span follow (R141). -/
theorem mem_openBegins_iff : o ∈ openBegins w ↔ ∃ pre post, w = pre ++ o :: post ∧ o.kind = .beginRec ∧
    ∀ a ∈ post, a.span = o.span → a.kind = .beginRec := by
  induction w with
  | nil => simp [openBegins]
  | cons x xs ih =>
    have head : o ∈ openBegins (x :: xs) ↔
        (o = x ∧ x.kind = .beginRec ∧ ∀ a ∈ xs, a.span = x.span → a.kind = .beginRec) ∨ o ∈ openBegins xs := by
      have closed : (¬ xs.any (fun a => a.kind != .beginRec && a.span == x.span) = true) ↔
          ∀ a ∈ xs, a.span = x.span → a.kind = .beginRec := by
        simp only [List.any_eq_true, Bool.and_eq_true, bne_iff_ne, beq_iff_eq, not_exists, not_and, ne_eq,
          not_imp_not]
      simp only [openBegins, closed]
      split
      · rename_i h; rw [List.mem_cons, and_iff_left h]
      · rename_i h; simp only [h, and_false, false_or]
    rw [head, ih]
    constructor
    · rintro (⟨rfl, hk, hp⟩ | ⟨pre, post, rfl, hk, hp⟩)
      · exact ⟨[], xs, rfl, hk, hp⟩
      · exact ⟨x :: pre, post, rfl, hk, hp⟩
    · rintro ⟨pre, post, he, hk, hp⟩
      rcases List.cons_eq_append_iff.1 he with ⟨-, h⟩ | ⟨pre', -, h⟩
      · cases h; exact .inl ⟨rfl, hk, hp⟩
      · exact .inr ⟨pre', post, h, hk, hp⟩

/-- The BEGIN records left open are those for which a CANCEL record is looked for (R141). -/
theorem leftOpen_iff : LeftOpen t w o ↔ o ∈ openBegins w ∧
    (!(t.toList.filterMap id).any (fun b => b.stage != .active && b.span == o.span)) = true := by
  have settled : (!(t.toList.filterMap id).any (fun b => b.stage != .active && b.span == o.span)) = true ↔
      ∀ i : Fin 128, ∀ b ∈ t[i], b.span = o.span → b.stage = .active := by
    simp only [Bool.not_eq_true', List.any_eq_false, mem_bindings_iff, Bool.and_eq_true, bne_iff_ne, beq_iff_eq,
      not_and, ne_eq, forall_exists_index, not_imp_not]
    exact ⟨fun h i b hb => h b i hb, fun h b i hb => h i b hb⟩
  rw [mem_openBegins_iff, settled]
  constructor
  · rintro ⟨pre, post, hw, hk, hp, hs⟩; exact ⟨⟨pre, post, hw, hk, hp⟩, hs⟩
  · rintro ⟨⟨pre, post, hw, hk, hp⟩, hs⟩; exact ⟨pre, post, hw, hk, hp, hs⟩

/-- An ACTIVE entry lacks its ASSIGN record, or none does (R141). -/
theorem find_unassigned (t : Remap) (w : List JRecord) :
    (∃ b, (t.toList.filterMap id).find? (fun b => b.stage == .active && !assignWritten w b) = some b ∧
      (∃ i : Fin 128, t[i] = some b) ∧ b.stage = .active ∧ ¬ Assigned w b) ∨
    (t.toList.filterMap id).find? (fun b => b.stage == .active && !assignWritten w b) = none ∧
      ∀ i : Fin 128, ∀ b ∈ t[i], b.stage = .active → Assigned w b := by
  cases hf : (t.toList.filterMap id).find? (fun b => b.stage == .active && !assignWritten w b) with
  | some b =>
    have lacks := List.find?_some hf
    simp only [Bool.and_eq_true, beq_iff_eq, Bool.not_eq_true', Bool.eq_false_iff, ne_eq, assignWritten_iff] at lacks
    exact .inl ⟨b, rfl, mem_bindings_iff.1 (List.mem_of_find?_eq_some hf), lacks⟩
  | none =>
    refine .inr ⟨rfl, fun i b hb ha => ?_⟩
    have has := List.find?_eq_none.1 hf b (mem_bindings_iff.2 ⟨i, hb⟩)
    simpa [ha, assignWritten_iff] using has

/-- With an ACTIVE entry that lacks its ASSIGN record, that record is needed; else the CANCEL record of a BEGIN
that was left open, if there is one (R141). -/
theorem reconcileNeed_cases (t : Remap) (w : List JRecord) :
    (∃ i : Fin 128, ∃ b, t[i] = some b ∧ b.stage = .active ∧ ¬ Assigned w b ∧
      reconcileNeed t w = some ⟨.assignRec, b.span, b.slot, b.poisoned⟩) ∨
    (∀ i : Fin 128, ∀ b ∈ t[i], b.stage = .active → Assigned w b) ∧
      ((∃ o, LeftOpen t w o ∧ reconcileNeed t w = some ⟨.cancelRec, o.span, o.slot, 0⟩) ∨
        (∀ o, ¬ LeftOpen t w o) ∧ reconcileNeed t w = none) := by
  rcases find_unassigned t w with ⟨b, hf, ⟨i, hb⟩, ha, hn⟩ | ⟨hf, hall⟩
  · exact .inl ⟨i, b, hb, ha, hn, by simp only [reconcileNeed, hf]⟩
  · refine .inr ⟨hall, ?_⟩
    simp only [reconcileNeed, hf]
    cases ho : (openBegins w).find? _ with
    | some o =>
      have quiet := List.find?_some ho
      exact .inl ⟨o, leftOpen_iff.2 ⟨List.mem_of_find?_eq_some ho, quiet⟩, rfl⟩
    | none => exact .inr ⟨fun o hl => List.find?_eq_none.1 ho o (leftOpen_iff.1 hl).1 (leftOpen_iff.1 hl).2, rfl⟩

end Sys2Proof.Machine

namespace Sys2Proof.Machine

/-! ## The store's work goes on

What an erase, a verified program and two headers read lead to, by the work under way. -/

variable {s t u : State} {c : CompactCause} {x : HalfId} {i : Nat} {l w : List JRecord} {r : JRecord} {q : JRequest}
  {rest : List JRequest} {a b : List Byte}

/-! ### Compaction -/

/-- Below the largest epoch the header is programmed (R133, R134). -/
theorem headerStep_of_epoch (he : s.journal.epoch ≠ 4294967295) :
    headerStep c x s = setTask (.compact c x .header) s := if_neg he

theorem erased_of_compact (ht : s.journal.task = .compact c x .erasing) (hl : s.journal.snapshot = some l) :
    erased s = if 0 < l.length then setTask (.compact c x (.snapshot 0)) s else headerStep c x s := by
  rw [← snapshotStep_eq hl, erased, ht]

theorem verified_of_snapshot (ht : s.journal.task = .compact c x (.snapshot i)) (hl : s.journal.snapshot = some l) :
    verified s = if i + 1 < l.length then setTask (.compact c x (.snapshot (i + 1))) s else headerStep c x s := by
  rw [← snapshotStep_eq hl, verified, ht]

/-- The target half made live by its header, with the next epoch and JOURNAL_COMPACTED told (R133). -/
def compacted (x : HalfId) (l : List JRecord) (s : State) : State :=
  { offer (journalEvent .journalCompacted (some x) l.length) s with
    journal := { s.journal with live := some x, epoch := s.journal.epoch + 1, next := l.length + 1, snapshot := none } }

section

variable (hl : s.journal.snapshot = some l)

include hl

theorem verified_of_appendHeader (ht : s.journal.task = .compact .append x .header) :
    verified s = setTask .append (compacted x l s) := by
  simp only [verified, ht, headerVerified, hl, Option.getD_some]; rfl

theorem verified_of_geometryHeader (ht : s.journal.task = .compact .geometry x .header) :
    verified s = serveCommand (setTask .idle (compacted x l s)) := by
  simp only [verified, ht, headerVerified, hl, Option.getD_some]; rfl

theorem verified_of_attachHeader (ht : s.journal.task = .compact .attach x .header) :
    verified s = reconcile l (compacted x l s) := by
  simp only [verified, ht, headerVerified, hl, Option.getD_some]; rfl

end

theorem programmed_of_header (ht : s.journal.task = .compact c x .header) : programmed s =
    some (some x, 0, headerBytes { epoch := s.journal.epoch + 1, geom := s.geom }) := by
  rw [programmed, ht]

/-! ### Reconciliation -/

theorem programmed_of_reconcile (ht : s.journal.task = .reconcile w r) : programmed s =
    some (s.journal.live, s.journal.next, recordBytes s.journal.next r) := by
  rw [programmed, ht]

theorem verified_of_reconcile (ht : s.journal.task = .reconcile w r) : verified s =
    reconcile (w ++ [r]) (s.setJournal { s.journal with next := s.journal.next + 1 }) := by
  rw [verified, ht]; rfl

theorem reconcile_of_some (h : reconcileNeed s.remap w = some r) : reconcile w s = setTask (.reconcile w r) s := by
  simp only [reconcile, h]

/-- With nothing missing the store is ONLINE, every ACTIVE entry is journaled and the attach is answered (R141). -/
theorem reconcile_of_none (h : reconcileNeed s.remap w = none) (hr : s.journal.requests = q :: rest) : reconcile w s =
    { s with
      journal := { s.journal with task := .idle, store := .online, requests := rest }
      remap := journalFlags true s.remap, link := replied .ok [] } := by
  simp only [reconcile, h]
  exact serveCommand_eq (s := (setTask .idle (setStore .online s)).setRemap (journalFlags true s.remap)) hr

/-! ### Headers read by an attach or a cleaning -/

/-- The controller once both headers are read: the half they make live, with its epoch (R128, Table 9-3). -/
def Journal.chosen (j : Journal) (live : Option (HalfId × Header)) : Journal :=
  { j with live := live.map Prod.fst, epoch := (live.map (fun y => y.2.epoch)).getD 0 }

theorem setChosen_eq {live : Option (HalfId × Header)} (h : LiveHalf a b live) (s : State) :
    setChosen a b s = s.setJournal (s.journal.chosen live) := by
  rw [setChosen, chooseLive_of_liveHalf h]; rfl

/-- The half that is not live (R128). -/
theorem spareHalf_chosen (j : Journal) (live : Option (HalfId × Header)) :
    spareHalf (j.chosen live) = if live.map Prod.fst = some .b then .a else .b := spareHalf_eq _

theorem exec_attachHeaders_of_live {live : Option (HalfId × Header)} (ht : s.journal.task = .attachHeaders none)
    (h : LiveHalf a b live) : exec (.journalReadDone [a, b]) s = .next (settle (s.setJournal
      { s.journal.chosen live with
        task := .compact .attach (spareHalf (s.journal.chosen live)) .erasing
        snapshot := some (snapshotOf s.remap) })) := by
  rw [exec_attachHeaders ht, attachChoose, setChosen_eq h]; rfl

theorem exec_cleanHeaders_of_live {live : Option (HalfId × Header)} (ht : s.journal.task = .cleanHeaders none)
    (h : LiveHalf a b live) : exec (.journalReadDone [a, b]) s = .next (settle (s.setJournal
      { s.journal.chosen live with
        task := .cleanErase (spareHalf (s.journal.chosen live))
          (some (otherHalf (spareHalf (s.journal.chosen live)))) })) := by
  rw [exec_cleanHeaders ht, cleanChoose, setChosen_eq h]; rfl

theorem otherHalf_eq (x : HalfId) : otherHalf x = if x = .a then .b else .a := by cases x <;> rfl

/-! ### The first header of a store -/

theorem programmed_of_firstHeader (ht : s.journal.task = .initHeader ∨ s.journal.task = .cleanHeader) :
    programmed s = some (some .a, 0, headerBytes { epoch := 1, geom := defaultGeometry }) := by
  unfold programmed
  rcases ht with ht | ht <;> rw [ht]

theorem verified_of_initHeader (ht : s.journal.task = .initHeader) : verified s = endReplay [] (liveA s) := by
  rw [verified, ht]

theorem verified_of_cleanHeader (ht : s.journal.task = .cleanHeader) :
    verified s = endCleaning (setStore .online (liveA s)) := by
  rw [verified, ht]

/-! ### The statement -/

/-- Settles O58. Every completion leads to the state that its work names, and nothing else follows; what reconciliation
writes next is what `reconcileNeed` finds missing. -/
theorem storeWorkGoesOn : Obligations.StoreWorkGoesOn := by
  intro s goesOn
  refine ⟨fun c h r rs ht hl u => ?_, fun c h ht hl he u => ?_, fun ht u => ?_, fun h l ht u => ?_, fun h ht u => ?_,
    fun a b hd ht ha hb u => ?_, fun a b ht ha hb u => ?_, fun pos e ht he hl ho hm hw u => ?_, fun ht => ?_,
    fun c h i l r ht hl hr => ?_, fun c h l q rest ht hl hq header done hheader hdone => ?_,
    fun w r q rest ht hq => ?_, fun w need hneed => ?_, fun a b live target hlive htarget => ?_,
    fun header hheader ho hm hw done hdone => ?_⟩
  · exact exec_of_settled ((exec_sectorEraseDone (x := h) (by rw [ht]; rfl)).trans (by
      rw [erased_of_compact ht hl, if_pos (by simp)]; rfl))
  · refine exec_of_settled ((exec_sectorEraseDone (x := h) (by rw [ht]; rfl)).trans (by
      rw [erased_of_compact ht hl, List.length_nil, if_neg (Nat.lt_irrefl 0), headerStep_of_epoch he]; rfl))
  · exact exec_of_settled ((exec_sectorEraseDone (x := .a) (by rw [ht]; rfl)).trans (by rw [erased, ht]; rfl))
  · exact exec_of_settled ((exec_sectorEraseDone (x := h) (by rw [ht]; rfl)).trans (by rw [erased, ht]; rfl))
  · exact exec_of_settled ((exec_sectorEraseDone (x := h) (by rw [ht]; rfl)).trans (by rw [erased, ht]; rfl))
  · obtain ⟨live, sound⟩ := liveHalf_a (s := s) ha hb
    exact exec_of_settled ((exec_replayHeaders_of_some ht live).trans (by rw [sound]))
  · have live : LiveHalf a b none := .inl ⟨rfl, validHeader_of_empty ha, validHeader_of_empty hb⟩
    exact exec_of_settled ((exec_replayHeaders_of_none ht live).trans (by
      rw [headersReported_of_sound (damagedHeader_of_empty ha) (damagedHeader_of_empty hb)]))
  · have online : s.journal.store ≠ .disabled := by rw [ho]; nofun
    exact exec_of_settled ((exec_replayRecords ht).trans (by
      rw [replayPosition_of_empty he, replayStops, endReplay_of_live
        (s := s.setJournal { s.journal with next := pos }) hl online hm hw rfl]; rfl))
  · exact congrArg Host.Outcome.next (if_pos ht)
  · have done {v : State} (hv : verified s = v) :
        exec (.pageProgramDone (recordBytes (i + 1) r)) s = .next (settle v) :=
      hv ▸ exec_pageProgramDone (programmed_of_snapshot ht hl hr)
    refine ⟨fun hi u => exec_of_settled (done ?_), fun hi he u => exec_of_settled (done ?_)⟩
    · rw [verified_of_snapshot ht hl, if_pos hi]; rfl
    · rw [verified_of_snapshot ht hl, if_neg (by omega), headerStep_of_epoch he]; rfl
  · obtain rfl : done = compacted h l s := by
      rw [hdone, ← halfNumber_eq]; rfl
    have programs {v : State} (hv : verified s = v) : exec (.pageProgramDone header) s = .next (settle v) :=
      hheader ▸ hv ▸ exec_pageProgramDone (programmed_of_header ht)
    refine ⟨fun hc u => exec_of_settled (programs ?_), fun hc u => exec_of_settled (programs ?_),
      fun hc r hr u => exec_of_settled (programs ?_), fun hc hn u => exec_of_settled (programs ?_)⟩ <;> subst hc
    · exact verified_of_appendHeader hl ht
    · exact (verified_of_geometryHeader hl ht).trans
        (serveCommand_eq (s := setTask .idle (compacted h l s)) hq)
    · exact (verified_of_attachHeader hl ht).trans (reconcile_of_some (s := compacted h l s) hr)
    · exact (verified_of_attachHeader hl ht).trans (reconcile_of_none (s := compacted h l s) hn hq)
  · have programs {v : State} (hv : verified s = v) :
        exec (.pageProgramDone (recordBytes s.journal.next r)) s = .next (settle v) :=
      hv ▸ exec_pageProgramDone (programmed_of_reconcile ht)
    refine ⟨fun r' hr u => exec_of_settled (programs ?_), fun hn u => exec_of_settled (programs ?_)⟩
    · exact (verified_of_reconcile ht).trans
        (reconcile_of_some (s := s.setJournal { s.journal with next := s.journal.next + 1 }) hr)
    · exact (verified_of_reconcile ht).trans
        (reconcile_of_none (s := s.setJournal { s.journal with next := s.journal.next + 1 }) hn hq)
  · intro assigned left
    rw [hneed]
    rcases reconcileNeed_cases s.remap w with ⟨i, b, hb, ha, hn, he⟩ | ⟨hall, ⟨o, ho, he⟩ | ⟨hno, he⟩⟩ <;> rw [he]
    · exact ⟨⟨nofun, fun h => absurd (h.1 i b hb ha) hn⟩, fun r hr => .inl ⟨i, b, hb, ha, hn, by cases hr; rfl⟩⟩
    · exact ⟨⟨nofun, fun h => absurd ho (h.2 o)⟩, fun r hr => .inr ⟨o, ho, by cases hr; rfl⟩⟩
    · exact ⟨⟨fun _ => ⟨hall, hno⟩, fun _ => rfl⟩, nofun⟩
  · have spare : spareHalf (s.journal.chosen live) = target := by
      rw [htarget, spareHalf_chosen]
      cases live with
      | none => rfl
      | some y => obtain ⟨x, hd⟩ := y; cases x <;> rfl
    refine ⟨fun ht u => exec_of_settled ((exec_attachHeaders_of_live ht hlive).trans ?_),
      fun ht u => exec_of_settled ((exec_cleanHeaders_of_live ht hlive).trans ?_)⟩
    · rw [spare]; rfl
    · rw [otherHalf_eq, spare]; rfl
  · have online : (liveA s).journal.store ≠ .disabled := by
      show s.journal.store ≠ _; rw [ho]; nofun
    have programs (ht : s.journal.task = .initHeader ∨ s.journal.task = .cleanHeader) {v : State}
        (hv : verified s = v) : exec (.pageProgramDone header) s = .next (settle v) :=
      hheader ▸ hv ▸ exec_pageProgramDone (programmed_of_firstHeader ht)
    rw [hdone]
    refine ⟨fun ht hs => exec_of_settled (programs (.inl ht) ?_) rfl hs,
      fun ht u => exec_of_settled (programs (.inr ht) ?_)⟩
    · rw [verified_of_initHeader ht, endReplay_of_live (s := liveA s) nofun online hm hw rfl]; rfl
    · rw [verified_of_cleanHeader ht, endCleaning_of_waiting (t := setStore .online (liveA s)) hm hw]; rfl

end Sys2Proof.Machine

namespace Sys2Proof.Machine

/-! ## Replay record by record

What each record does to the tables and to the open list (R22, R136), where replay stops, and what each open pair comes
to at its end (R137). -/

variable {s t u v : State} {r : JRecord} {l : List OpenPair} {bytes : List Byte} {pos : Nat} {p : OpenPair}

/-! ### The checks of an ASSIGN record -/

/-- The checks of R22 in order: the span usable, the slot in the pool, the span unbound, the slot free. -/
theorem assignCheck_of_unusable (hu : s.geom.usable r.span = false) : assignCheck s r = 1 := by
  simp [assignCheck, hu]

theorem assignCheck_of_noSlot (hu : s.geom.usable r.span = true) (hn : s.geom.spareCount ≤ r.slot) :
    assignCheck s r = 2 := by
  simp [assignCheck, hu, hn]

section

variable (hu : s.geom.usable r.span = true) (hn : r.slot < s.geom.spareCount)

include hu hn

theorem assignCheck_of_bound (hb : ∃ i : Fin 128, ∃ b ∈ s.remap[i], b.span = r.span) : assignCheck s r = 3 := by
  have bound : (bindingOf s.remap r.span).isSome = true := by
    obtain ⟨i, b, hi, hs⟩ := hb
    exact Option.isSome_iff_ne_none.2 fun h => bindingOf_eq_none_iff.1 h i b hi hs
  simp [assignCheck, hu, Nat.not_le.2 hn, bound]

variable (hb : ¬ ∃ i : Fin 128, ∃ b ∈ s.remap[i], b.span = r.span)

include hb

theorem assignCheck_of_held (hh : ∃ i : Fin 128, ∃ b ∈ s.remap[i], b.slot = r.slot) : assignCheck s r = 4 := by
  have unbound : bindingOf s.remap r.span = none :=
    bindingOf_eq_none_iff.2 fun i b hi hs => hb ⟨i, b, hi, hs⟩
  have held : (bindingOfSlot s.remap r.slot).isSome = true := by
    obtain ⟨i, b, hi, hs⟩ := hh
    exact Option.isSome_iff_ne_none.2 fun h => bindingOfSlot_eq_none_iff.1 h i b hi hs
  simp [assignCheck, hu, Nat.not_le.2 hn, unbound, held]

theorem assignCheck_of_free (hh : ¬ ∃ i : Fin 128, ∃ b ∈ s.remap[i], b.slot = r.slot) : assignCheck s r = 0 := by
  have unbound : bindingOf s.remap r.span = none :=
    bindingOf_eq_none_iff.2 fun i b hi hs => hb ⟨i, b, hi, hs⟩
  have free : bindingOfSlot s.remap r.slot = none :=
    bindingOfSlot_eq_none_iff.2 fun i b hi hs => hh ⟨i, b, hi, hs⟩
  simp [assignCheck, hu, Nat.not_le.2 hn, unbound, free]

end

/-! ### Records by kind -/

/-- An ASSIGN that fails a check is reported with it (R22). -/
theorem replayGood_of_conflict {cause : Nat} (hk : r.kind = .assignRec) (hc : assignCheck s r = cause + 1) :
    replayGood r l s = offer (conflictEvent r.span r.slot (cause + 1)) s := by
  simp [replayGood, hk, replayAssign, hc]

/-- An ASSIGN that passes the checks is restored at the lowest FREE entry (R22). -/
theorem replayGood_of_assign {e : Fin 128} (hk : r.kind = .assignRec) (hc : assignCheck s r = 0)
    (he : freeEntry s.remap = some e) :
    replayGood r l s = s.setRemap (s.remap.set e (some (restoredBinding r))) := by
  simp [replayGood, hk, replayAssign, hc, he]

theorem replayGood_of_begin (hk : r.kind = .beginRec) : replayGood r l s =
    if openListFull r l then offer (conflictEvent r.span r.slot 5) s else s := by
  simp only [replayGood, hk]

theorem replayGood_of_cancel (hk : r.kind = .cancelRec) : replayGood r l s = s := by
  simp only [replayGood, hk]

/-- A record changes the Remap Table and the Event Queue (R136). -/
theorem replayGood_frame (r : JRecord) (l : List OpenPair) (s : State) :
    ∃ R E, replayGood r l s = { s with remap := R, events := E } := by
  unfold replayGood; split
  · unfold replayAssign; split
    · split <;> exact ⟨_, _, rfl⟩
    · exact ⟨_, _, rfl⟩
  · split <;> exact ⟨_, _, rfl⟩
  · exact ⟨_, _, rfl⟩

theorem openAfter_of_closing (hk : r.kind ≠ .beginRec) : openAfter r l = l.filter (fun p => p.span != r.span) := by
  unfold openAfter closePair; split
  · rename_i h; exact absurd h hk
  all_goals rfl

theorem openAfter_of_begin (hk : r.kind = .beginRec) :
    openAfter r l = if openListFull r l then l else openPair r l := by
  simp only [openAfter, hk]

theorem hasPair_iff : l.any (fun p => p.span == r.span) = true ↔ ∃ p ∈ l, p.span = r.span := by
  simp [List.any_eq_true]

/-- A BEGIN finds the list full when its span has no pair and eight have (R136). -/
theorem openListFull_iff : openListFull r l = true ↔ (∀ p ∈ l, p.span ≠ r.span) ∧ 8 ≤ l.length := by
  simp [openListFull]

theorem openPair_of_open (h : ∃ p ∈ l, p.span = r.span) :
    openPair r l = l.map (fun p => if p.span = r.span then { p with slot := r.slot } else p) :=
  if_pos (hasPair_iff.2 h)

theorem openPair_of_new (h : ∀ p ∈ l, p.span ≠ r.span) : openPair r l = l ++ [⟨r.span, r.slot⟩] :=
  if_neg fun hp => let ⟨p, hm, he⟩ := hasPair_iff.1 hp; h p hm he

/-! ### Positions -/

theorem replayPosition_of_torn (he : isEmptyPosition bytes = false) (hg : goodRecord pos bytes = none) :
    replayPosition pos l bytes s = replayGoesOn pos l (offer (journalEvent .recordTorn s.journal.live pos) s) := by
  simp only [replayPosition, he, hg]; rfl

theorem replayPosition_of_good (he : isEmptyPosition bytes = false) (hg : goodRecord pos bytes = some r) :
    replayPosition pos l bytes s = replayGoesOn pos (openAfter r l) (replayGood r l s) := by
  simp only [replayPosition, he, hg]; rfl

/-- Below position 255 replay reads the next position (R136). -/
theorem replayGoesOn_of_more (hp : pos < 255) :
    replayGoesOn pos l s = setTask (.replayRecords (pos + 1) l) s := if_pos hp

theorem replayGoesOn_of_last (l : List OpenPair) (s : State) : replayGoesOn 255 l s = replayStops 256 l s := rfl

/-- Replay that stops takes the store and the bridge ONLINE, with the open pairs offered (R136, R137). -/
theorem replayStops_of_live {n : Nat} (ht : t.journal = s.journal ∧ t.mode = s.mode ∧ t.sweep = s.sweep)
    (hl : s.journal.live ≠ none) (ho : s.journal.store = .offline) (hm : s.mode = .startup)
    (hw : s.sweep.state = .waiting)
    (hv : v = l.foldl (fun t p => offerResumed p t)
      { t with journal := { s.journal with task := .idle, next := n } }) :
    replayStops n l t = { v with
      mode := .online
      journal := { v.journal with store := .online }
      sweep := { v.sweep with timer := some v.sweep.interval } } := by
  obtain ⟨hj, hmode, hsweep⟩ := ht
  refine endReplay_of_live (s := t.setJournal { t.journal with next := n }) ?_ ?_ (hmode.trans hm)
    (by rw [State.setJournal_sweep, hsweep]; exact hw) (hv.trans ?_)
  · rw [State.setJournal_journal, hj]; exact hl
  · rw [State.setJournal_journal, hj]; show s.journal.store ≠ _; rw [ho]; nofun
  · rw [hj]; rfl

/-! ### Open pairs -/

theorem offerResumed_of_unusable (hu : s.geom.usable p.span = false) :
    offerResumed p s = offer (conflictEvent p.span p.slot 6) s := by
  simp only [offerResumed, admission_of_unusable hu]

theorem offerResumed_of_placed (hu : s.geom.usable p.span = true) (h : Placed s p.span) :
    offerResumed p s = offer (conflictEvent p.span p.slot 7) s := by
  simp only [offerResumed, admission_of_placed hu h]

theorem offerResumed_of_full (hu : s.geom.usable p.span = true) (h : ¬ Placed s p.span) (hr : 8 ≤ s.retire.length) :
    offerResumed p s = offer (conflictEvent p.span p.slot 8) s := by
  simp only [offerResumed, admission_of_full hu h hr]

theorem offerResumed_of_room (hu : s.geom.usable p.span = true) (h : ¬ Placed s p.span) (hr : s.retire.length < 8) :
    offerResumed p s =
      { offer (spanEvent .copyResumed .journal p.span (some p.slot) (some (s.retire.length + 1))) s with
        retire := s.retire ++ [⟨p.span, .resumed⟩] } := by
  simp only [offerResumed, admission_of_room hu h hr, enqueueSpan, State.setRetire_retire, List.length_append,
    List.length_singleton]
  rfl

/-! ### The statement -/

/-- Settles O60. The record's kind and its checks name the table, the open list and the event it leaves (`good`); the
position decides whether replay goes on with them or stops. -/
theorem replayReadsRecords : Obligations.ReplayReadsRecords := by
  intro s taken
  have good {r : JRecord} {l l' : List OpenPair} {told : State} (h : taken r l l' told) :
      openAfter r l = l' ∧ replayGood r l s = told := by
    rcases h with ⟨e, hk, hu, hn, hb, hh, he, hlow, rfl, rfl⟩ | ⟨cause, hk, hc, rfl, rfl⟩ |
      ⟨hk, hp, rfl, rfl⟩ | ⟨hk, hp, ⟨hn, rfl, rfl⟩ | ⟨hn, rfl, rfl⟩⟩ | ⟨hk, rfl, rfl⟩
    · refine ⟨openAfter_of_closing (by simp [hk]), ?_⟩
      exact replayGood_of_assign hk (assignCheck_of_free hu hn hb hh) (freeEntry_eq_some he hlow)
    · refine ⟨openAfter_of_closing (by simp [hk]), ?_⟩
      rcases hc with ⟨rfl, hu⟩ | ⟨hu, ⟨rfl, hn⟩ | ⟨hn, ⟨rfl, hb⟩ | ⟨hb, rfl, hh⟩⟩⟩
      · exact replayGood_of_conflict hk (assignCheck_of_unusable hu)
      · exact replayGood_of_conflict hk (assignCheck_of_noSlot hu hn)
      · exact replayGood_of_conflict hk (assignCheck_of_bound hu hn hb)
      · exact replayGood_of_conflict hk (assignCheck_of_held hu hn hb hh)
    · have room : ¬ openListFull r l = true := fun h =>
        let ⟨p, hm, hs⟩ := hp; (openListFull_iff.1 h).1 p hm hs
      rw [openAfter_of_begin hk, replayGood_of_begin hk, if_neg room, if_neg room, openPair_of_open hp]
      exact ⟨rfl, rfl⟩
    · have room : ¬ openListFull r l = true := fun h => Nat.not_lt.2 (openListFull_iff.1 h).2 hn
      rw [openAfter_of_begin hk, replayGood_of_begin hk, if_neg room, if_neg room, openPair_of_new hp]
      exact ⟨rfl, rfl⟩
    · have full : openListFull r l' = true := openListFull_iff.2 ⟨hp, hn⟩
      rw [openAfter_of_begin hk, replayGood_of_begin hk, if_pos full, if_pos full]
      exact ⟨rfl, rfl⟩
    · exact ⟨openAfter_of_closing (by simp [hk]), replayGood_of_cancel hk⟩
  have kept {r : JRecord} {l l' : List OpenPair} {told : State} (h : taken r l l' told) :
      told.journal = s.journal ∧ told.mode = s.mode ∧ told.sweep = s.sweep := by
    obtain ⟨R, E, frame⟩ := replayGood_frame r l s
    rw [← (good h).2, frame]; exact ⟨rfl, rfl, rfl⟩
  refine ⟨fun a b live ht hlive t told htt htold => ⟨fun hn u => ?_, fun h hd hn u => ?_⟩, ?_,
    fun pos stop l l' bytes told ht hcase hl ho hm hw v hv => ?_,
    fun p => ⟨offerResumed_of_unusable, offerResumed_of_placed, offerResumed_of_full, offerResumed_of_room⟩⟩
  · subst hn htold htt
    exact exec_of_settled (exec_replayHeaders_of_none ht hlive)
  · subst hn htold htt
    exact exec_of_settled (exec_replayHeaders_of_some ht hlive)
  · intro pos l bytes ht hp he next
    refine ⟨fun hg u => ?_, fun r l' told hg hr u => ?_⟩
    · exact exec_of_settled ((exec_replayRecords ht).trans (by
        rw [replayPosition_of_torn he hg, replayGoesOn_of_more hp]; rfl))
    · obtain ⟨hopen, htold⟩ := good hr
      exact exec_of_settled ((exec_replayRecords ht).trans (by
        rw [replayPosition_of_good he hg, replayGoesOn_of_more hp, hopen, htold, setTask, (kept hr).1]; rfl))
  · rw [exec_replayRecords ht]
    rcases hcase with ⟨he, rfl, rfl, rfl⟩ | ⟨rfl, he, rfl, ⟨hg, rfl, rfl⟩ | ⟨r, hg, hr⟩⟩
    · rw [replayPosition_of_empty he, replayStops_of_live ⟨rfl, rfl, rfl⟩ hl ho hm hw hv]
    · rw [replayPosition_of_torn he hg, replayGoesOn_of_last,
        replayStops_of_live (s := s) (t := offer _ s) ⟨rfl, rfl, rfl⟩ hl ho hm hw hv]
    · obtain ⟨hopen, htold⟩ := good hr
      rw [replayPosition_of_good he hg, hopen, htold, replayGoesOn_of_last,
        replayStops_of_live (kept hr) hl ho hm hw hv]

end Sys2Proof.Machine

namespace Sys2Proof.Machine

/-! ## What an offered event does to the queue and the flags

An offer sets its category's flag and then finds the queue in one of four states: with room and no loss to report, full,
with room for the LOST record and the event, or with room for the LOST record alone. Each has its equation. -/

variable {s : State} {e : Event} {q : Events} {pass : BitVec 16}

/-! ### The four states of the queue -/

/-- With room and no loss to report the event is stored (R145). -/
theorem offerEvent_of_room (hr : q.records.length < 32) (hl : q.lost = 0) : offerEvent pass e q =
    { records := q.records ++ [⟨q.seq, e, pass⟩], seq := q.seq + 1, lost := 0,
      flags := setFlag q.flags (categoryBit e.kind) } := by
  simp [offerEvent, reportLost, storeOrLose, storeRecord, hr, hl]

/-- In a full queue the event is lost and counted, and the first loss sets QUEUE (R146). -/
theorem offerEvent_of_full (hr : 32 ≤ q.records.length) : offerEvent pass e q =
    { q with
      lost := min 255 (q.lost + 1)
      flags := if q.lost = 0 then setFlag (setFlag q.flags (categoryBit e.kind)) 7
        else setFlag q.flags (categoryBit e.kind) } := by
  simp [offerEvent, reportLost, storeOrLose, loseRecord, Nat.not_lt.2 hr]

/-- With a loss to report and two places free, the LOST record and the event are stored (R147). -/
theorem offerEvent_of_loss (hr : q.records.length < 31) (hl : 0 < q.lost) : offerEvent pass e q =
    { records := q.records ++ [⟨q.seq, lostEvent q.lost, pass⟩, ⟨q.seq + 1, e, pass⟩], seq := q.seq + 2, lost := 0,
      flags := setFlag q.flags (categoryBit e.kind) } := by
  have first : q.records.length < 32 := by omega
  have second : q.records.length + 1 < 32 := by omega
  have two : q.seq + 1#16 + 1#16 = q.seq + 2#16 := by rw [BitVec.add_assoc]; rfl
  simp [offerEvent, reportLost, storeOrLose, storeRecord, first, second, hl, two]

/-- With a loss to report and one place free, the LOST record takes it and the event is the next loss (R146, R147). -/
theorem offerEvent_of_lastPlace (hr : q.records.length = 31) (hl : 0 < q.lost) : offerEvent pass e q =
    { records := q.records ++ [⟨q.seq, lostEvent q.lost, pass⟩], seq := q.seq + 1, lost := 1,
      flags := setFlag (setFlag q.flags (categoryBit e.kind)) 7 } := by
  simp [offerEvent, reportLost, storeOrLose, storeRecord, loseRecord, hr, hl]

/-! ### The flags and the numbers -/

theorem setFlag_other {f : BitVec 8} {j k : Nat} (h : k ≠ j) : (setFlag f j).getLsbD k = f.getLsbD k := by
  rcases Nat.lt_or_gt_of_ne h with hk | hk
  · simp [setFlag, hk]
  · have : k - j ≠ 0 := by omega
    simp [setFlag, this]

/-- An offer leaves the flags of the other categories, and QUEUE too unless it brings the first loss of a count (R146,
R151). -/
theorem offerEvent_flags_other {k : Nat} (hk : k ≠ categoryBit e.kind)
    (h : k ≠ 7 ∨ q.records.length < 31 ∨ q.records.length = 31 ∧ q.lost = 0 ∨ 32 ≤ q.records.length ∧ 0 < q.lost) :
    (offerEvent pass e q).flags.getLsbD k = q.flags.getLsbD k := by
  have category : (setFlag q.flags (categoryBit e.kind)).getLsbD k = q.flags.getLsbD k := setFlag_other hk
  have queue (h7 : k ≠ 7) : (setFlag (setFlag q.flags (categoryBit e.kind)) 7).getLsbD k = q.flags.getLsbD k :=
    (setFlag_other h7).trans category
  rcases Nat.lt_or_ge q.records.length 32 with hr | hr
  · rcases Nat.eq_zero_or_pos q.lost with hl | hl
    · rw [offerEvent_of_room hr hl]; exact category
    · rcases Nat.lt_or_ge q.records.length 31 with hr' | hr'
      · rw [offerEvent_of_loss hr' hl]; exact category
      · rw [offerEvent_of_lastPlace (by omega) hl]; exact queue (by omega)
  · rw [offerEvent_of_full hr]
    dsimp only
    split
    · exact queue (by omega)
    · exact category

/-- With a place free, the next sequence number goes to a record (R145, R147). -/
theorem offerEvent_takes_seq (hr : q.records.length < 32) : ∃ r ∈ (offerEvent pass e q).records, r.seq = q.seq := by
  rcases Nat.eq_zero_or_pos q.lost with hl | hl
  · rw [offerEvent_of_room hr hl]; exact ⟨⟨q.seq, e, pass⟩, by simp, rfl⟩
  · refine ⟨⟨q.seq, lostEvent q.lost, pass⟩, ?_, rfl⟩
    rcases Nat.lt_or_ge q.records.length 31 with hr' | hr'
    · rw [offerEvent_of_loss hr' hl]; simp
    · rw [offerEvent_of_lastPlace (by omega) hl]; simp

/-- Settles O24, by the state in which the offer finds the queue. -/
theorem offeredEventsAreStoredOrLost : Obligations.OfferedEventsAreStoredOrLost := by
  refine fun e s => ⟨rfl, offer_sets_flag e s, fun k => offer_keeps_flag e s k,
    fun k hk hq => offerEvent_flags_other hk hq, fun hr hl => ?_, fun hr => ?_, fun hr hl => ?_, fun hr hl => ?_⟩ <;>
    simp only [offer, State.setEvents_events]
  · rw [offerEvent_of_room hr hl]; exact ⟨rfl, rfl, rfl⟩
  · rw [offerEvent_of_full hr]
    exact ⟨rfl, rfl, rfl, fun hl => by rw [if_pos hl]; exact setFlag_self _ 7 (by decide)⟩
  · rw [offerEvent_of_loss hr hl]; exact ⟨rfl, rfl, rfl⟩
  · rw [offerEvent_of_lastPlace hr hl]; exact ⟨rfl, rfl, rfl, setFlag_self _ 7 (by decide)⟩

end Sys2Proof.Machine

namespace Sys2Proof.Machine

/-! ## The Event Queue stays sound

Records are only added at the back with the counter's number and taken from the front, so the numbers stay consecutive
up to the counter. -/

variable {s u v : State} {q : Events} {pass : BitVec 16}

/-! ### The queue's operations -/

/-- `Events.Sound` does not speak of the flags. -/
theorem Events.Sound.setFlags (h : q.Sound) (f : BitVec 8) : Events.Sound { q with flags := f } :=
  ⟨h.room, h.lost, h.order⟩

/-- A record stored takes the counter's number, and the counter stands one after it (R144, R145). -/
theorem Events.Sound.storeRecord (h : q.Sound) (hr : q.records.length < 32) (e : Event) :
    (storeRecord pass e q).Sound := by
  refine ⟨by simpa [Machine.storeRecord] using hr, h.lost, fun i hi => ?_⟩
  simp only [Machine.storeRecord, List.length_append, List.length_singleton] at hi ⊢
  rcases Nat.lt_succ_iff_lt_or_eq.1 hi with hi' | rfl
  · have later : q.records.length + 1 - i = (q.records.length - i) + 1 := by omega
    rw [List.getElem_append_left hi', h.order i hi', later, BitVec.ofNat_add]
    bv_omega
  · simp

theorem Events.Sound.loseRecord (h : q.Sound) : (loseRecord q).Sound := ⟨h.room, Nat.min_le_left _ _, h.order⟩

theorem Events.Sound.reportLost (h : q.Sound) : (reportLost pass q).Sound := by
  unfold Machine.reportLost
  split
  · rename_i hr
    have stored := h.storeRecord (pass := pass) hr.2 (lostEvent q.lost)
    exact ⟨stored.room, Nat.zero_le _, stored.order⟩
  · exact h

theorem Events.Sound.offerEvent (h : q.Sound) (e : Event) : (offerEvent pass e q).Sound := by
  have reported := (h.setFlags (setFlag q.flags (categoryBit e.kind))).reportLost (pass := pass)
  unfold Machine.offerEvent storeOrLose
  split
  · exact reported.storeRecord ‹_› e
  · exact reported.loseRecord

/-- The records left after a drop keep their numbers and their distance to the counter (R149). -/
theorem Events.Sound.dropRecords (h : q.Sound) (n : Nat) : (dropRecords n q).Sound := by
  refine ⟨(List.drop_sublist _ _).length_le.trans h.room, h.lost, fun i hi => ?_⟩
  simp only [Machine.dropRecords, List.length_drop] at hi ⊢
  rw [List.getElem_drop, h.order (n + i) (by omega), Nat.sub_sub]

/-! ### A step -/

/-- No act makes the Event Queue unsound. -/
theorem Act.keeps_eventsSound (h : Act u v) (hu : u.events.Sound) : v.events.Sound := by
  cases h with
  | offer e => exact hu.offerEvent e
  | drop n => exact hu.dropRecords n
  | ack f => exact hu.setFlags f
  | _ => exact hu

/-- A full reset empties the Event Queue (R1, R144). -/
theorem fullResetState_events (hold en : Bool) (addr : BitVec 2) (s : State) :
    (fullResetState hold en addr s).events = freshEvents := by
  cases hold with
  | true => rfl
  | false =>
    cases en with
    | true => rw [fullResetState_of_store]; rfl
    | false => rw [fullResetState_of_no_store]; rfl

/-- Settles O6: a full reset empties the queue, and every other command is a chain of acts, of which only an offer, a
drop and an acknowledgement touch it. -/
theorem eventQueueStaysConsecutive : Obligations.EventQueueStaysConsecutive := by
  intro s t hs hx
  unfold step at hx
  split at hx
  · cases hx; exact hs
  · rename_i c rest _
    by_cases hc : ∀ h e a, c ≠ .fullReset h e a
    · exact (acts_of_exec hc hx).keeps (P := fun u => u.events.Sound) (fun _ _ => Act.keeps_eventsSound) hs
    · simp only [not_forall, not_not] at hc
      obtain ⟨h, e, a, rfl⟩ := hc
      cases hx
      obtain ⟨sound, -⟩ := resetMeetsInvariants
      rw [fullResetState_events]; exact sound

end Sys2Proof.Machine

namespace Sys2Proof.Machine

/-! ## The event and alert commands

The four commands are taken in every mode; each runs its body on the state with the frame taken. -/

variable {s : State}

/-! ### The commands as taken -/

theorem readEvents_eq (n : Byte) (hb : s.link.busy = false) :
    exec (.readEvents [n]) s = .next (readEventsBody n.toNat (takeFrame s)) :=
  congrArg Host.Outcome.next (takeCommand_taken hb rfl rfl (by simp))

theorem dropEvents_eq (n : Byte) (hb : s.link.busy = false) :
    exec (.dropEvents [n]) s = .next (dropEventsBody n.toNat (takeFrame s)) :=
  congrArg Host.Outcome.next (takeCommand_taken hb rfl rfl (by simp))

theorem readAlerts_eq (hb : s.link.busy = false) :
    exec (.readAlerts []) s = .next (readAlertsBody (takeFrame s)) :=
  congrArg Host.Outcome.next (takeCommand_taken hb rfl rfl (Nat.zero_le _))

theorem ackAlerts_eq (bits : Byte) (hb : s.link.busy = false) :
    exec (.ackAlerts [bits]) s = .next (ackAlertsBody bits (takeFrame s)) :=
  congrArg Host.Outcome.next (takeCommand_taken hb rfl rfl (by simp))

/-! ### READ_EVENTS -/

/-- A byte of a five-bit and a three-bit code is the two side by side. -/
theorem byteOf_codes {a b : Nat} (ha : a < 32) (hb : b < 8) :
    byteOf (a + 32 * b) = (BitVec.ofNat 3 b ++ BitVec.ofNat 5 a : BitVec 8) := by
  apply BitVec.eq_of_toNat_eq
  have ha' : (BitVec.ofNat 5 a).toNat = a := by simp [Nat.mod_eq_of_lt ha]
  have hb' : (BitVec.ofNat 3 b).toNat = b := by simp [Nat.mod_eq_of_lt hb]
  rw [BitVec.toNat_append, ha', hb', ← Nat.shiftLeft_add_eq_or_of_lt ha, Nat.shiftLeft_eq, byteOf, BitVec.toNat_ofNat]
  omega

/-- A kind's code is its place in Table 11-9, from 1 on. -/
theorem eventCode_eq (k : EventKind) : eventCode k =
    [EventKind.corrected, .transient, .uncorrectable, .poisonWritten, .lineCarriedPoison, .threshold, .retireQueued,
      .retireDeferred, .retireStarted, .retireDone, .retireCancelled, .copyResumed, .spareExhausted, .spareDegraded,
      .healthTableFull, .storeFault, .journalCompacted, .recordTorn, .replayConflict, .memoryError, .fenced,
      .tagQuarantined, .hostProtocol, .hostReset, .sweepPassDone, .lost].idxOf k + 1 := by
  cases k <;> rfl

/-- A source's code is its place in Table 11-8. -/
theorem sourceCode_eq (x : Source) :
    sourceCode x = [Source.none, .host, .copy, .sweep, .journal, .link, .port].idxOf x := by
  cases x <;> rfl

theorem eventCode_lt (k : EventKind) : eventCode k < 32 := by cases k <;> decide

theorem sourceCode_lt (x : Source) : sourceCode x < 8 := by cases x <;> decide

/-- Settles O21: each count runs the body, and a record's bytes are those of Table 11-8 field by field. -/
theorem eventsAreRead : Obligations.EventsAreRead := by
  intro s n hb kinds sources field recordLayout
  have field_eq (w : Nat) (x : Option Nat) : leOption w x = field w x := by cases x <;> rfl
  have layout : eventBytes = recordLayout := by
    funext r
    rw [eventBytes, byteOf_codes (eventCode_lt _) (sourceCode_lt _), eventCode_eq, sourceCode_eq]
    simp only [field_eq]
    rfl
  refine ⟨fun hn => ?_, fun h1 h2 => ?_, fun e => offerEvent_records _ _ _⟩
  · have hn : n.toNat = 1 ∨ n.toNat = 2 := hn.imp (by rintro rfl; rfl) (by rintro rfl; rfl)
    rw [readEvents_eq n hb, readEventsBody, if_pos hn, readEventsBytes, layout]; rfl
  · have hn : ¬ (n.toNat = 1 ∨ n.toNat = 2) :=
      not_or.2 ⟨fun h => h1 (BitVec.eq_of_toNat_eq h), fun h => h2 (BitVec.eq_of_toNat_eq h)⟩
    rw [readEvents_eq n hb, readEventsBody, if_neg hn]; rfl

/-! ### DROP_EVENTS -/

/-- EVENTS, bit 3 of the status byte, reads set while a record is held (R158, Table 11-6). -/
theorem statusByte_events : (statusByte s).getLsbD 3 = !s.events.records.isEmpty := by
  have := Bool.toNat_lt s.link.busy
  have := Bool.toNat_lt s.link.response.isSome
  have := Bool.toNat_lt (alertLow s)
  rw [statusByte, BitVec.getLsbD_ofNat, Nat.testBit_eq_decide_div_mod_eq,
    decide_eq_true (by decide : 3 < 8), Bool.true_and]
  cases !s.events.records.isEmpty with
  | false => rw [Bool.toNat_false, decide_eq_false (by omega)]
  | true => rw [Bool.toNat_true, decide_eq_true (by omega)]

/-- Settles O22: the drop leaves room, in which an event offered after it finds a place. -/
theorem eventsAreDropped : Obligations.EventsAreDropped := by
  refine fun s n hb => ⟨⟨_, dropEvents_eq n hb, rfl, ?_, fun e hn hr hp => ?_⟩,
    fun e => ⟨offerEvent_records _ _ _, fun hr => ?_, fun hr hl => ?_⟩⟩
  · rw [statusByte_events]
    simp [dropEventsBody, dropRecords, answer, takeFrame]
  · refine offerEvent_takes_seq ?_
    show (s.events.records.drop n.toNat).length < 32
    rw [List.length_drop]; omega
  · rw [offer, offerEvent_of_full hr.ge]; rfl
  · rw [offer, offerEvent_of_room hr hl]; exact ⟨_, rfl, rfl⟩

/-! ### READ_ALERTS and ACK_ALERTS -/

/-- Settles O23: an acknowledgement clears the named flags as they stand when it is taken, so a flag set after it
stays. -/
theorem alertsAreReadAndAcknowledged : Obligations.AlertsAreReadAndAcknowledged := by
  have cleared (f bits : BitVec 8) (k : Fin 8) : (f &&& ~~~bits).getLsbD k = (f.getLsbD k && !bits.getLsbD k) := by
    simp
  refine fun s bits hb => ⟨readAlerts_eq hb,
    ⟨_, ackAlerts_eq bits hb, rfl, fun k => cleared _ _ k, fun e => offer_sets_flag e _⟩,
    fun e he => ⟨_, ackAlerts_eq (s := offer e s) bits hb, ?_⟩, fun n => ⟨_, dropEvents_eq n hb, rfl⟩⟩
  show ((offer e s).events.flags &&& ~~~bits).getLsbD (categoryBit e.kind) = false
  simp [he]

end Sys2Proof.Machine

namespace Sys2Proof.Machine

/-! ## Write transactions: frames, refusals, and a BUSY link

Every command of Table 11-4 is taken in the same way: `takeCommand` with the modes and the lengths of its code. The
frames, the refusals and the BUSY link are then each said once for all 24 codes. -/

variable {s : State} {bytes ps : List Byte}

/-! ### The commands by their codes -/

/-- The part is in a mode in which Table 11-4 takes the code. -/
def takenIn (code : Byte) (s : State) : Bool :=
  if code ∈ holdCodes then inHold s
  else if code ∈ anyModeCodes then true
  else if code ∈ onlineCodes then inOnline s
  else outsideStartup s

/-- A code of Table 11-4 runs the command of its name. -/
theorem exec_eq_runCode : ∀ p ∈ linkCommands, ∀ (ps : List Byte) (s : State),
    exec (p.2 ps) s = .next (runCode p.1.toNat ps s) := by
  intro p hp ps s
  fin_cases hp <;> rfl

/-- The lengths of RAW_SHIFT: the flags and up to 16 bytes to drive (Table 11-4). -/
theorem exists_lt_succ_eq_iff (n : Nat) : (∃ a < 17, a + 1 = n) ↔ 1 ≤ n ∧ n ≤ 17 :=
  ⟨fun ⟨a, h⟩ => by omega, fun h => ⟨n - 1, by omega⟩⟩

/-- Every command is taken in the modes of its code, with the parameter lengths of its code (Table 11-4). -/
theorem exec_eq_takeCommand : ∀ p ∈ linkCommands, ∀ (ps : List Byte) (s : State),
    ∃ (lengthOk : Bool) (body : State → State), (lengthOk = true ↔ ps.length ∈ lengthsOf p.1) ∧
      exec (p.2 ps) s = .next (takeCommand (takenIn p.1 s) lengthOk ps body s) := by
  intro p hp ps s
  fin_cases hp <;> refine ⟨_, _, ?_, rfl⟩ <;> simp [lengthsOf, exists_lt_succ_eq_iff]

/-- The modes of a code, as Table 11-4 tells HOLD, all modes, ONLINE, and ONLINE with FENCED apart. -/
theorem takenIn_iff (c : Byte) : takenIn c s = true ↔
    (c ∈ holdCodes → s.journal.task = .hold) ∧ (c ∉ holdCodes ++ anyModeCodes → s.mode ≠ .startup) ∧
      (c ∈ onlineCodes → s.mode ≠ .fenced) := by
  have apart : ∀ c ∈ onlineCodes, c ∉ holdCodes ++ anyModeCodes := by decide
  have := apart c
  rw [List.mem_append] at *
  unfold takenIn
  split_ifs with hh ha ho
  · simp_all [inHold]
  · simp_all
  · cases hm : s.mode <;> simp_all [inOnline]
  · simp_all [outsideStartup]

/-! ### What a command is answered before its body -/

theorem takeCommand_of_busy {a l : Bool} {f : State → State} (hb : s.link.busy = true) :
    takeCommand a l ps f s = s := if_pos hb

theorem takeCommand_of_refused {a l : Bool} {f : State → State} (hb : s.link.busy = false) (hn : ps.length ≤ 24)
    (ha : ¬ a = true) : takeCommand a l ps f s = answer .refusedState [] s := by
  rw [takeCommand, if_neg (by simp [hb]), if_neg (Nat.not_lt.2 hn), if_pos (by simpa using ha)]

theorem takeCommand_of_badLength {a l : Bool} {f : State → State} (hb : s.link.busy = false) (hn : ps.length ≤ 24)
    (ha : a = true) (hl : ¬ l = true) : takeCommand a l ps f s = answer .badParam [] s := by
  rw [takeCommand, if_neg (by simp [hb]), if_neg (Nat.not_lt.2 hn), if_neg (by simp [ha]), if_pos (by simpa using hl)]

theorem exec_linkCommand_of_busy {p : Byte × (List Byte → Instr)} (hp : p ∈ linkCommands) (hb : s.link.busy = true) :
    exec (p.2 ps) s = .next s := by
  obtain ⟨_, _, -, run⟩ := exec_eq_takeCommand p hp ps s
  rw [run, takeCommand_of_busy hb]

/-- Settles O18: the modes and the lengths of a code decide before its body runs. -/
theorem refusedCommandsChangeNothing : Obligations.RefusedCommandsChangeNothing := by
  intro p hp ps s hb hn
  obtain ⟨lengthOk, body, hlen, run⟩ := exec_eq_takeCommand p hp ps s
  rw [run]
  refine ⟨fun hout => ?_, fun hh hs ho hl => ?_⟩
  · have refused : ¬ takenIn p.1 s = true := by rw [takenIn_iff]; tauto
    rw [takeCommand_of_refused hb hn refused]; rfl
  · rw [takeCommand_of_badLength hb hn ((takenIn_iff _).2 ⟨hh, hs, ho⟩) (hlen.not.2 hl)]; rfl

/-! ### A write transaction, test by test -/

theorem exec_unknownFrame (bytes : List Byte) (s : State) :
    exec (.unknownFrame bytes) s = .next (takeTransaction bytes s) := congrArg Host.Outcome.next (busWrite_own bytes s)

theorem takeTransaction_of_busy (hb : s.link.busy = true) : takeTransaction bytes s = s := if_pos hb

theorem takeTransaction_nil (s : State) : takeTransaction [] s = s := by simp [takeTransaction]

theorem takeTransaction_of_badLength (hb : s.link.busy = false) (hne : bytes ≠ []) (hl : ¬ frameLengthOk bytes = true) :
    takeTransaction bytes s = answer .badFrame [] s := by
  simp [takeTransaction, hb, hne, hl]

theorem ne_nil_of_frameLengthOk (hl : frameLengthOk bytes = true) : bytes ≠ [] := by
  rintro rfl; exact absurd hl (by decide)

theorem takeTransaction_of_badCheck (hb : s.link.busy = false) (hl : frameLengthOk bytes = true)
    (hc : byteSum bytes ≠ 0) : takeTransaction bytes s = answer .badCheck [] s := by
  have bad : frameCheckOk bytes = false := beq_false_of_ne hc
  simp [takeTransaction, hb, ne_nil_of_frameLengthOk hl, hl, bad]

theorem takeTransaction_of_unknown (hb : s.link.busy = false) (hl : frameLengthOk bytes = true)
    (hc : byteSum bytes = 0) (hk : frameCode bytes ∉ commandCodes) :
    takeTransaction bytes s = answer .unknown [] s := by
  simp [takeTransaction, hb, ne_nil_of_frameLengthOk hl, hl, frameCheckOk, hc, frameCodeOk, hk]

theorem takeTransaction_of_command (hb : s.link.busy = false) (hl : frameLengthOk bytes = true)
    (hc : byteSum bytes = 0) (hk : frameCode bytes ∈ commandCodes) :
    takeTransaction bytes s = runCode (frameCode bytes).toNat (frameParams bytes) s := by
  simp [takeTransaction, hb, ne_nil_of_frameLengthOk hl, hl, frameCheckOk, hc, frameCodeOk, hk]

/-- The length test of R155 by the second byte, N. -/
theorem frameLengthOk_iff : frameLengthOk bytes = true ↔
    3 ≤ bytes.length ∧ (bytes.getD 1 0).toNat ≤ 24 ∧ bytes.length = (bytes.getD 1 0).toNat + 3 := by
  match bytes with
  | [] => simp [frameLengthOk]
  | [_] => simp [frameLengthOk]
  | _ :: n :: rest => simp [frameLengthOk]; omega

theorem frameCode_eq_getD (bytes : List Byte) : frameCode bytes = bytes.getD 0 0 := by cases bytes <;> rfl

/-- Settles O16, by the tests of R155 in their order. -/
theorem badFramesAreAnswered : Obligations.BadFramesAreAnswered := by
  refine fun s hb => ⟨?_, fun bytes hne hbad => ?_, fun bytes h3 h24 hlen => ?_⟩
  · rw [exec_unknownFrame, takeTransaction_nil]
  · have bad : ¬ frameLengthOk bytes = true := by rw [frameLengthOk_iff]; omega
    rw [exec_unknownFrame, takeTransaction_of_badLength hb hne bad]; rfl
  · have good : frameLengthOk bytes = true := frameLengthOk_iff.2 ⟨h3, h24, hlen⟩
    refine ⟨fun hc => ?_, fun hc hk => ?_⟩
    · rw [exec_unknownFrame, takeTransaction_of_badCheck hb good hc]; rfl
    · rw [exec_unknownFrame, takeTransaction_of_unknown hb good hc (frameCode_eq_getD bytes ▸ hk)]; rfl

/-! ### A frame spells its command -/

theorem frameCode_frameOf (c : Byte) (ps : List Byte) : frameCode (frameOf c ps) = c := rfl

theorem frameParams_frameOf (c : Byte) (ps : List Byte) : frameParams (frameOf c ps) = ps :=
  List.dropLast_concat

/-- Settles O15: a frame passes the three tests, and its code runs the command of its name. -/
theorem framesNameTheirCommands : Obligations.FramesNameTheirCommands := by
  intro p hp ps s hn
  rw [exec_unknownFrame]
  cases hb : s.link.busy with
  | true => rw [takeTransaction_of_busy hb, exec_linkCommand_of_busy hp hb]
  | false =>
    have code : frameCode (frameOf p.1 ps) ∈ commandCodes := List.mem_map_of_mem (f := Prod.fst) hp
    rw [takeTransaction_of_command hb (frameLengthOk_frameOf _ _ hn) (byteSum_frameOf _ _) code, frameCode_frameOf,
      frameParams_frameOf, exec_eq_runCode p hp]

/-- Settles O17: BUSY is the first thing that a transaction and a command are tested for. -/
theorem busyLinkRefusesWrites : Obligations.BusyLinkRefusesWrites := by
  refine ⟨fun bytes s => rfl, fun bytes s hb => ⟨if_pos hb, ?_, rfl⟩,
    fun p hp ps s hb => exec_linkCommand_of_busy hp hb⟩
  rw [exec_unknownFrame, takeTransaction_of_busy hb]

end Sys2Proof.Machine

namespace Sys2Proof.Machine

/-! ## The status byte, and transactions on the bus

The status byte is its eight bits side by side, and a read transaction is that byte before the response frame. -/

variable {s : State}

/-! ### The status byte -/

/-- The bits of the status byte side by side, bit 7 first (Table 11-6). -/
def statusBits (hold online : Bool) (mode : Mode) (events alert response busy : Bool) : Byte :=
  BitVec.ofBool hold ++ BitVec.ofBool online ++ BitVec.ofNat 2 (modeCode mode) ++ BitVec.ofBool events
    ++ BitVec.ofBool alert ++ BitVec.ofBool response ++ BitVec.ofBool busy

theorem ofNat_eq_statusBits (m : Mode) : ∀ hold online events alert response busy : Bool,
    BitVec.ofNat 8 (busy.toNat + 2 * response.toNat + 4 * alert.toNat + 8 * events.toNat + 16 * modeCode m
      + 64 * online.toNat + 128 * hold.toNat) = statusBits hold online m events alert response busy := by
  cases m <;> decide

theorem statusByte_eq_statusBits (s : State) : statusByte s =
    statusBits (s.journal.task == .hold) (s.journal.store == .online) s.mode (!s.events.records.isEmpty) (alertLow s)
      s.link.response.isSome s.link.busy :=
  ofNat_eq_statusBits ..

/-- Each field is read back from its place in the status byte. -/
theorem statusBits_fields (m : Mode) : ∀ hold online events alert response busy : Bool,
    let b := statusBits hold online m events alert response busy
    b.getLsbD 0 = busy ∧ b.getLsbD 1 = response ∧ b.getLsbD 2 = alert ∧
      b.extractLsb' 4 2 = BitVec.ofNat 2 (modeCode m) ∧ b.getLsbD 6 = online ∧ b.getLsbD 7 = hold := by
  cases m <;> decide

/-- ALERT is low while a flag is set that the mask lets through (R151). -/
theorem alertLow_iff : alertLow s = true ↔
    ∃ k : Fin 8, s.events.flags.getLsbD k = true ∧ s.params.alertMask.getLsbD k = false := by
  have masked (k : Fin 8) : (s.events.flags &&& ~~~s.params.alertMask).getLsbD k =
      (s.events.flags.getLsbD k && !s.params.alertMask.getLsbD k) := by simp
  have zero (x : Byte) : x = 0 ↔ ∀ k : Fin 8, x.getLsbD k = false := by
    rw [BitVec.eq_of_getLsbD_eq_iff, Fin.forall_iff]
    simp only [BitVec.ofNat_eq_ofNat, BitVec.getLsbD_zero]
  rw [alertLow, bne_iff_ne, ne_eq, zero, not_forall]
  refine exists_congr fun k => ?_
  rw [masked, Bool.not_eq_false, Bool.and_eq_true, Bool.not_eq_true']

/-- Settles O13. Bits 4 and 5 hold one of three codes, which all ones is not. -/
theorem statusByteReports : Obligations.StatusByteReports := by
  intro s
  obtain ⟨busy, response, alert, mode, online, hold⟩ := statusBits_fields s.mode (s.journal.task == Task.hold)
    (s.journal.store == Store.online) (!s.events.records.isEmpty) (alertLow s) s.link.response.isSome s.link.busy
  rw [← statusByte_eq_statusBits] at busy response alert mode online hold
  refine ⟨busy, response, by rw [alert, alertLow_iff], ?_, ?_, by rw [online, beq_iff_eq], by rw [hold, beq_iff_eq],
    fun hff => ?_⟩
  · rw [statusByte_events]; simp
  · rw [mode]; cases s.mode <;> rfl
  · rw [hff] at mode
    cases hm : s.mode <;> rw [hm] at mode <;> exact absurd mode (by decide)

/-! ### The address, and the response frame -/

theorem acksAddress_iff {addr : BitVec 7} : acksAddress addr s = true ↔ addr.toNat = 0x2A + s.pins.addr.toNat :=
  beq_iff_eq

theorem eq_ownAddress {addr : BitVec 7} (h : addr.toNat = 0x2A + s.pins.addr.toNat) : addr = ownAddress s := by
  rw [ownAddress, linkAddress, ← h, BitVec.ofNat_toNat, BitVec.setWidth_eq]

/-- Past the response a read transaction gives FFh bytes, as many as it has bytes left (R157). -/
theorem readTransaction_succ (n : Nat) (s : State) : readTransaction (n + 1) s =
    statusByte s :: (((s.link.response.map responseBytes).getD []) ++ List.replicate n 0xFF).take n := by
  simp only [readTransaction, List.cons_append, List.take_succ_cons, List.take_append, List.take_replicate]
  congr 3; omega

theorem fullResetState_addr (hold en : Bool) (addr : BitVec 2) (s : State) :
    (fullResetState hold en addr s).pins.addr = addr := by
  cases hold with
  | true => rfl
  | false => cases en <;> rfl

/-- Settles O14: the address decides whether the part takes part at all. -/
theorem readTransactionsGiveTheResponse : Obligations.ReadTransactionsGiveTheResponse := by
  refine ⟨fun r => ⟨byteSum_frameOf _ _, ?_, rfl, List.take_left⟩, readTransaction_succ,
    fun addr bytes n s => ⟨fun own => ?_, fun other => ?_⟩, fun s t hold en addr hx => ?_⟩
  · simp [responseBytes, frameOf]
  · have acks : acksAddress addr s = true := acksAddress_iff.2 own
    refine ⟨if_pos acks, if_pos acks, ?_⟩
    rw [eq_ownAddress own]; rfl
  · have ignores : ¬ acksAddress addr s = true := acksAddress_iff.not.2 other
    exact ⟨if_neg ignores, if_neg ignores, if_neg ignores⟩
  · obtain rfl : fullResetState hold en addr s = t := Host.Outcome.next.inj hx
    exact fullResetState_addr hold en addr s

end Sys2Proof.Machine

namespace Sys2Proof.Machine

/-! ## Parameters and statistics over the link

Each command is taken on a free link; an identifier's value, and a value in its range, decide the answer. -/

variable {s : State} {id : Byte} {v : Nat}

/-! ### GET_PARAM -/

theorem getParam_eq (id : Byte) (hb : s.link.busy = false) :
    exec (.getParam [id]) s = .next (getParamBody id.toNat (takeFrame s)) :=
  congrArg Host.Outcome.next (takeCommand_taken hb rfl rfl (by simp))

/-- A parameter is answered with its identifier and value (R160). -/
theorem getParam_of_value (hb : s.link.busy = false) (h : paramValue s.params id.toNat = some v) :
    exec (.getParam [id]) s = .next { s with link := replied .ok (id :: leBytes 2 v) } := by
  have hid : id.toNat ≠ 0x20 := fun h20 => by rw [h20] at h; exact absurd h (by simp [paramValue])
  have hv : paramValue (takeFrame s).params id.toNat = some v := h
  rw [getParam_eq id hb, getParamBody, if_neg hid, hv, byteOf, BitVec.ofNat_toNat, BitVec.setWidth_eq]; rfl

/-- The identifiers of Table 11-2 are 1 to 11. -/
theorem paramValue_eq_none {n : Nat} (p : Params) (h : n = 0 ∨ 11 < n) : paramValue p n = none := by
  rcases h with rfl | h
  · rfl
  · obtain ⟨k, rfl⟩ := Nat.exists_eq_add_of_le' h; rfl

/-- An identifier that is neither a parameter's nor the geometry's is BAD_PARAM (R160). -/
theorem getParam_of_unknown (hb : s.link.busy = false) (h : id = 0 ∨ 11 < id.toNat ∧ id ≠ 0x20) :
    exec (.getParam [id]) s = .next { s with link := replied .badParam [] } := by
  have hid : id.toNat ≠ 0x20 := by
    rcases h with rfl | ⟨-, h⟩
    · decide
    · exact fun h20 => h (BitVec.eq_of_toNat_eq h20)
  have out : id.toNat = 0 ∨ 11 < id.toNat := h.imp (by rintro rfl; rfl) And.left
  rw [getParam_eq id hb, getParamBody, if_neg hid, paramValue_eq_none _ out]; rfl

/-! ### READ_STATS -/

theorem readStats_eq (page : Byte) (hb : s.link.busy = false) (hm : s.mode ≠ .startup) :
    exec (.readStats [page]) s = .next (readStatsBody page.toNat (takeFrame s)) :=
  congrArg Host.Outcome.next (takeCommand_read _ hb hm rfl (by simp))

theorem readStatsBody_of_beyond {page : Nat} (h : 1 < page) (s : State) :
    readStatsBody page s = answer .badParam [] s := by
  obtain ⟨k, rfl⟩ := Nat.exists_eq_add_of_le' h; rfl

/-- A word of two parts is the upper one shifted above the lower one. -/
theorem toNat_append_eq_add {m n : Nat} (x : BitVec m) (y : BitVec n) :
    (x ++ y).toNat = x.toNat * 2 ^ n + y.toNat := by
  rw [BitVec.toNat_append, ← Nat.shiftLeft_add_eq_or_of_lt y.isLt, Nat.shiftLeft_eq]

/-- A sweep state's code is its place in Table 11-7. -/
theorem sweepCode_eq (x : SweepState) :
    sweepCode x = [SweepState.stopped, .waiting, .reading, .retrying, .writingBack].idxOf x := by
  cases x <;> rfl

theorem sweepCode_lt (x : SweepState) : sweepCode x < 8 := by cases x <;> decide

/-- The first word of the sweep report: a position of 28 bits, the state above it, the accelerated flag on top. -/
theorem sweepWord_eq {n c : Nat} (hn : n < 268435456) (hc : c < 8) (fast : Bool) :
    (BitVec.ofBool fast ++ BitVec.ofNat 3 c ++ BitVec.ofNat 28 n : BitVec 32).toNat =
      n + 0x10000000 * c + 0x80000000 * fast.toNat := by
  refine (toNat_append_eq_add (BitVec.ofBool fast ++ BitVec.ofNat 3 c) (BitVec.ofNat 28 n)).trans ?_
  rw [toNat_append_eq_add, BitVec.toNat_ofBool, BitVec.toNat_ofNat, BitVec.toNat_ofNat, Nat.mod_eq_of_lt hn,
    Nat.mod_eq_of_lt hc]
  omega

/-- Settles O20: the identifier's value, or the page, is the payload. -/
theorem paramAndStatsReadsAnswer : Obligations.ParamAndStatsReadsAnswer := by
  intro s hb p onOff states
  have onOff_eq (b : Bool) : b.toNat = onOff b := by cases b <;> rfl
  have bytes (n : Nat) : leBytes 2 n = [BitVec.ofNat 8 n, BitVec.ofNat 8 (n / 256)] ∧
      leBytes 3 n = leBytes 2 n ++ [BitVec.ofNat 8 (n / 65536)] ∧
      leBytes 4 n = leBytes 3 n ++ [BitVec.ofNat 8 (n / 16777216)] := by
    simp [leBytes, Nat.div_div_eq_div_mul]
  refine ⟨bytes, fun x hx => getParam_of_value hb ?_, by rw [getParam_eq _ hb]; rfl,
    fun id h => getParam_of_unknown hb h, fun hm => ⟨?_, fun hpos w hw => ?_, fun page h => ?_⟩⟩
  · fin_cases hx <;> simp [paramValue, p, onOff_eq]
  · rw [readStats_eq _ hb hm]; rfl
  · have word : s.sweep.position + 0x10000000 * sweepCode s.sweep.state + 0x80000000 * s.sweep.accelerated.toNat =
        w.toNat := by rw [hw, ← sweepCode_eq, sweepWord_eq hpos (sweepCode_lt _)]
    rw [readStats_eq _ hb hm, ← word]; rfl
  · rw [readStats_eq _ hb hm, readStatsBody_of_beyond h]; rfl

/-! ### SET_PARAM -/

theorem setParam_eq (id : Byte) (hv : v < 65536) (hb : s.link.busy = false) (hm : s.mode ≠ .startup) :
    exec (.setParam (id :: leBytes 2 v)) s = .next (setParamBody id.toNat v (takeFrame s)) := by
  have h := takeCommand_read (ps := id :: leBytes 2 v) (l := (id :: leBytes 2 v).length == 3)
    (setParamBody id.toNat (leNat (leBytes 2 v))) hb hm (by simp) (by simp)
  exact congrArg Host.Outcome.next (h.trans (by rw [leNat_leBytes 2 v hv]))

/-- A value in its parameter's range sets it (R160). -/
theorem setParam_of_inRange (hv : v < 65536) (hb : s.link.busy = false) (hm : s.mode ≠ .startup) {lo hi : Nat}
    (hr : paramRange id.toNat = some (lo, hi)) (hlo : lo ≤ v) (hhi : v ≤ hi) :
    exec (.setParam (id :: leBytes 2 v)) s = .next (answer .ok [] (applyParam id.toNat v (takeFrame s))) := by
  have inRange : paramInRange id.toNat v = true := by simp [paramInRange, hr, hlo, hhi]
  rw [setParam_eq id hv hb hm, setParamBody, if_pos inRange]

theorem setAlertMask_eq (bits : Byte) (hb : s.link.busy = false) (hm : s.mode ≠ .startup) :
    exec (.setAlertMask [bits]) s = .next (setAlertMaskBody bits (takeFrame s)) :=
  congrArg Host.Outcome.next (takeCommand_read _ hb hm rfl (by simp))

/-- Settles O25: a value is set when the range of its identifier holds it. -/
theorem parametersAreSet : Obligations.ParametersAreSet := by
  intro s v hb hm hv
  have sets (id : Byte) {lo hi : Nat} (hr : paramRange id.toNat = some (lo, hi)) (hlo : lo ≤ v) (hhi : v ≤ hi) :=
    setParam_of_inRange hv hb hm hr hlo hhi
  refine ⟨fun id h => ?_, sets 1 rfl, sets 2 rfl, sets 3 rfl (Nat.zero_le v), sets 4 rfl (Nat.zero_le v),
    fun h => sets 5 rfl h (Nat.le_of_lt_succ hv), sets 6 rfl (Nat.zero_le v) (Nat.le_of_lt_succ hv),
    sets 8 rfl (Nat.zero_le v), sets 9 rfl, sets 10 rfl (Nat.zero_le v), fun h => ?_⟩
  · rw [setParam_eq id hv hb hm, setParamBody, if_neg (Bool.eq_false_iff.1 h)]; rfl
  · have mask := sets 11 rfl (Nat.zero_le v) h
    exact ⟨mask, by rw [mask, setAlertMask_eq _ hb hm]; rfl⟩

end Sys2Proof.Machine

namespace Sys2Proof.Machine

/-! ## The queue of commands -/

variable {u v : State}

/-! ### A step takes the front of the queue -/

theorem step_of_cons {c : Instr} {rest : List Instr} {s : State} (h : s.pending = c :: rest) :
    step s = exec c (s.setPending rest) := by rw [step, h]

theorem step_of_nil {s : State} (h : s.pending = []) : step s = .next s := by rw [step, h]

/-- Settles O1, by the two cases of the queue. -/
theorem stepRunsFrontCommand : Obligations.StepRunsFrontCommand :=
  ⟨fun _ _ _ h => step_of_cons h, fun _ h => step_of_nil h⟩

/-! ### A command leaves the queue -/

/-- Every arm of `exec` goes to a state: none faults, and none is refused by the model. -/
theorem exec_answers (c : Instr) (s : State) : ∃ t, exec c s = .next t := by
  cases c <;> exact ⟨_, rfl⟩

/-- No act touches the queue of commands: it is the model's own field, and no rule speaks of it. -/
theorem Act.keeps_pending (h : Act u v) : v.pending = u.pending := by
  cases h <;> rfl

theorem Acts.keeps_pending (h : Acts u v) : v.pending = u.pending :=
  h.keeps (P := fun w => w.pending = u.pending) (fun _ _ ha hw => ha.keeps_pending.trans hw) rfl

/-- A full reset keeps the queue of commands (notes/assumptions/15.md). -/
theorem fullResetState_pending (hold en : Bool) (addr : BitVec 2) (s : State) :
    (fullResetState hold en addr s).pending = s.pending := by
  cases hold with
  | true => rfl
  | false =>
    cases en with
    | true => rw [fullResetState_of_store]; rfl
    | false => rw [fullResetState_of_no_store]; rfl

/-- Settles O2: a full reset keeps the queue, and every other command is a chain of acts, none of which touches it. -/
theorem commandsLeaveTheQueue : Obligations.CommandsLeaveTheQueue := by
  intro c s
  obtain ⟨t, hx⟩ := exec_answers c s
  refine ⟨t, hx, ?_⟩
  by_cases hc : ∀ h e a, c ≠ .fullReset h e a
  · exact (acts_of_exec hc hx).keeps_pending
  · simp only [not_forall, not_not] at hc
    obtain ⟨h, e, a, rfl⟩ := hc
    cases hx; exact fullResetState_pending h e a s

end Sys2Proof.Machine
